-- ==== Sys2Proof/Word.lean ====
section
/-! DEFINITION. The word types of the PiXL raster core's ports and storage (R60, R13). -/

namespace Sys2Proof

/-- One 32-bit word of a port: a packet is made of these (R60). -/
abbrev Word := BitVec 32

/-- One byte: a framebuffer cell, a glyph row, a colour component, a payload byte (R46). -/
abbrev Byte := BitVec 8

end Sys2Proof
end

