-- ==== Sys2Proof/Config.lean ====
section
/-! DEFINITION. What an implementation fixes (the parameters of R4) and the values the spec leaves free
(R13, R24, R25, R28, U1, U2; and where TEXT_CAP outgrows R64 and R113). -/

namespace Sys2Proof

/-- A palette entry: three bytes (R16). -/
structure Rgb where
  r : Byte
  g : Byte
  b : Byte
  deriving DecidableEq, Repr, Inhabited

/-- One glyph: eight row bytes, row 0 first (R17). -/
abbrev Glyph := Vector Byte 8

/-- The ten logical buttons, in the order of R19. -/
inductive Button where
  | a | b | x | y | up | down | left | right | start | select
  deriving DecidableEq, Repr, Inhabited

/-- The two readings of sprite data bytes 128 to 255 (R103, U3). -/
inductive SpriteHi where
  | mask7
  | zero
  deriving DecidableEq, Repr, Inhabited

/-- The implementation parameters of R4. `buttonMap` lists the sources that name a button; a source it does
not list is mapped to `none`, so every total function of R4 has such a list (log 19). -/
structure Params where
  maxW : Nat
  maxH : Nat
  initW : BitVec 16
  initH : BitVec 16
  rngFix : Word
  palInit : Vector Rgb 16
  fontInit : Vector Glyph 128
  textCap : Nat
  buttonMap : List (BitVec 24 × Button)
  spriteHi : SpriteHi
  clkHz : Nat
  deriving DecidableEq, Repr, Inhabited

/-- The constraints R4 puts on the parameters. -/
def Params.wf (p : Params) : Bool :=
  decide (2 ≤ p.maxW ∧ p.maxW ≤ 32768 ∧ 2 ≤ p.maxH ∧ p.maxH ≤ 32768
    ∧ 0 < p.initW.toNat ∧ p.initW.toNat < p.maxW ∧ 0 < p.initH.toNat ∧ p.initH.toNat < p.maxH
    ∧ p.rngFix ≠ 0 ∧ 1 ≤ p.textCap ∧ 1 ≤ p.clkHz)

/-- The smallest parameters R4 allows; it stands in where the opaque record below breaks a constraint. -/
def Params.least : Params where
  maxW := 2
  maxH := 2
  initW := 1
  initH := 1
  rngFix := 1
  palInit := Vector.replicate 16 ⟨0, 0, 0⟩
  fontInit := Vector.replicate 128 (Vector.replicate 8 0)
  textCap := 1
  buttonMap := []
  spriteHi := .mask7
  clkHz := 1

/-- FREE VALUE (log 2): some record of parameters; nothing in Lean knows which. -/
opaque Config.anyParams : Params

/-- The parameters of the machine `State.reset` describes: some record that meets R4's constraints (log 2). -/
def Config.params : Params := if Config.anyParams.wf then Config.anyParams else Params.least

/-- FREE VALUE (R13, U1; log 3): the byte an unwritten framebuffer cell holds, by the number of the draw and the
cell's index. -/
opaque Config.freeCell : Nat → Nat → Byte

/-- FREE VALUE (R28, U2; log 4): `ASPECT` after the reset with this draw number. -/
opaque Config.freeAspect : Nat → Word

/-- FREE VALUE (R24, U2; log 4): `ERRCMD` after the reset with this draw number. -/
opaque Config.freeErrcmd : Nat → Word

/-- FREE VALUE (R25, U2; log 4): `LASTT` after the reset with this draw number. -/
opaque Config.freeLastt : Nat → BitVec 64

/-- FREE VALUE (R4, R113; log 12): the `LEN` word of TEXTGET for a text of this length, where the length has more than
32 bits and the spec states no word. -/
opaque Config.freeTextLen : Nat → Word

/-- FREE VALUE (R4, R64; log 12): the `nres` field of a response with this many result words, where the number has more
than 16 bits and the spec states no field. -/
opaque Config.freeResultCount : Nat → BitVec 16

end Sys2Proof
end

