-- ==== Sys2Proof/Syntax.lean ====
section
/-! DEFINITION. The 32 commands of R65 as data, one constructor per row of spec/opcode_table.json. -/

namespace Sys2Proof

/-- An `XY(a,b)` operand word (R62): two signed 16-bit halves, `a` the x-like one. -/
structure XY where
  a : BitVec 16
  b : BitVec 16
  deriving DecidableEq, Repr

/-- A `WH(w,h)` operand word (R62): two unsigned 16-bit halves. -/
structure WH where
  w : BitVec 16
  h : BitVec 16
  deriving DecidableEq, Repr

/-- A `RAD(r)` operand word (R62): a signed 16-bit radius and the reserved upper half, which must be 0 (R66). -/
structure RAD where
  r : BitVec 16
  reserved : BitVec 16
  deriving DecidableEq, Repr

/-- What a packet gives for the operands of the command its header selects (R66, test 2): the operands, or an
operand count `nw` that is not the one the command requires (log 11). -/
inductive Args (α : Type) where
  | ok (v : α)
  | wrongCount (nw : BitVec 16)
  deriving DecidableEq, Repr

/-- The commands (R65). A first `Byte` or `Bool` is the `c8` field where the row uses it; `Args` holds the operand
words. A `LEN(len)` word and its DATA words are the list of the `len` bytes (R63). -/
inductive Instr where
  | setres (a : Args XY)
  | setresa (a : Args (XY × Word))
  | run (a : Args Unit)
  | endframe (a : Args Unit)
  | quit (a : Args Unit)
  | cbreg (en : Bool) (a : Args Unit)
  | pset (c : Byte) (a : Args XY)
  | pget (a : Args XY)
  | clip (a : Args (XY × XY))
  | clipget (a : Args Unit)
  | translate (a : Args XY)
  | clear (c : Byte) (a : Args Unit)
  | rect (c : Byte) (a : Args (XY × XY))
  | rectf (c : Byte) (a : Args (XY × XY))
  | circ (c : Byte) (a : Args (XY × RAD))
  | circf (c : Byte) (a : Args (XY × RAD))
  | line (c : Byte) (a : Args (XY × XY))
  | glyphget (code : Byte) (a : Args Unit)
  | glyphset (code : Byte) (a : Args (List Byte))
  | print (c : Byte) (a : Args (XY × List Byte))
  | sprite (t : Byte) (a : Args (XY × WH × List Byte))
  | colorget (slot : Byte) (a : Args Unit)
  | colorset (slot : Byte) (a : Args (Word × Word × Word))
  | btn (a : Args Unit)
  | btnp (a : Args Unit)
  | mouse (a : Args Unit)
  | textget (a : Args Unit)
  | randu (a : Args Unit)
  | randn (a : Args Word)
  | randr (a : Args (Word × Word))
  | seedget (a : Args Unit)
  | seedset (a : Args Word)
  deriving DecidableEq, Repr

end Sys2Proof
end

