-- ==== Sys2Proof/WellFormed.lean ====
section
/-! DEFINITION. Which instructions a packet can carry without failing a decode test of R66: the operand count is
the command's, a `RAD` word's reserved half is 0, and a payload fits the 16-bit `nw` field (R67). -/

namespace Sys2Proof

/-- The operands are there (R66, test 2) and satisfy `ok`. -/
def Args.wf {α : Type} (ok : α → Bool) : Args α → Bool
  | .ok v => ok v
  | .wrongCount _ => false

/-- The longest payload of a command with `fixed` operand words before its DATA words (R67). -/
def maxPayload (fixed : Nat) : Nat := 4 * (65535 - fixed)

/-- Well-formed instructions. -/
def Instr.wf : Instr → Bool
  | .setres a => a.wf fun _ => true
  | .setresa a => a.wf fun _ => true
  | .run a => a.wf fun _ => true
  | .endframe a => a.wf fun _ => true
  | .quit a => a.wf fun _ => true
  | .cbreg _ a => a.wf fun _ => true
  | .pset _ a => a.wf fun _ => true
  | .pget a => a.wf fun _ => true
  | .clip a => a.wf fun _ => true
  | .clipget a => a.wf fun _ => true
  | .translate a => a.wf fun _ => true
  | .clear _ a => a.wf fun _ => true
  | .rect _ a => a.wf fun _ => true
  | .rectf _ a => a.wf fun _ => true
  | .circ _ a => a.wf fun v => v.2.reserved == 0
  | .circf _ a => a.wf fun v => v.2.reserved == 0
  | .line _ a => a.wf fun _ => true
  | .glyphget _ a => a.wf fun _ => true
  | .glyphset _ a => a.wf fun v => decide (v.length ≤ maxPayload 1)
  | .print _ a => a.wf fun v => decide (v.2.length ≤ maxPayload 2)
  | .sprite _ a => a.wf fun v => decide (v.2.2.length ≤ maxPayload 3)
  | .colorget _ a => a.wf fun _ => true
  | .colorset _ a => a.wf fun _ => true
  | .btn a => a.wf fun _ => true
  | .btnp a => a.wf fun _ => true
  | .mouse a => a.wf fun _ => true
  | .textget a => a.wf fun _ => true
  | .randu a => a.wf fun _ => true
  | .randn a => a.wf fun _ => true
  | .randr a => a.wf fun _ => true
  | .seedget a => a.wf fun _ => true
  | .seedset a => a.wf fun _ => true

end Sys2Proof
end

