-- ==== Sys2Proof/Decode.lean ====
section
/-! DEFINITION. Decoding and encoding of packets, responses' byte strings and event records, from the tables of
spec/30_encoding.md (R60 to R68). Decoding is total: a list of words is an incomplete packet, a packet no row
matches, or a command (with its operands, or with a wrong operand count). -/

namespace Sys2Proof

/-- The rows of the opcode map (R65). -/
inductive Op where
  | setres
  | setresa
  | run
  | endframe
  | quit
  | cbreg
  | pset
  | pget
  | clip
  | clipget
  | translate
  | clear
  | rect
  | rectf
  | circ
  | circf
  | line
  | glyphget
  | glyphset
  | print
  | sprite
  | colorget
  | colorset
  | btn
  | btnp
  | mouse
  | textget
  | randu
  | randn
  | randr
  | seedget
  | seedset
  deriving DecidableEq, Repr

/-- Every row of the opcode map, in opcode order (R65). -/
def Op.all : List Op :=
  [.setres, .setresa, .run, .endframe, .quit, .cbreg, .pset, .pget,
   .clip, .clipget, .translate, .clear, .rect, .rectf, .circ, .circf,
   .line, .glyphget, .glyphset, .print, .sprite, .colorget, .colorset, .btn,
   .btnp, .mouse, .textget, .randu, .randn, .randr, .seedget, .seedset]

/-- The opcode, the row's `match` (R65). -/
def Op.code : Op → Byte
  | .setres => 0x01
  | .setresa => 0x02
  | .run => 0x03
  | .endframe => 0x04
  | .quit => 0x05
  | .cbreg => 0x06
  | .pset => 0x10
  | .pget => 0x11
  | .clip => 0x12
  | .clipget => 0x13
  | .translate => 0x14
  | .clear => 0x20
  | .rect => 0x21
  | .rectf => 0x22
  | .circ => 0x23
  | .circf => 0x24
  | .line => 0x25
  | .glyphget => 0x30
  | .glyphset => 0x31
  | .print => 0x32
  | .sprite => 0x33
  | .colorget => 0x40
  | .colorset => 0x41
  | .btn => 0x50
  | .btnp => 0x51
  | .mouse => 0x52
  | .textget => 0x53
  | .randu => 0x60
  | .randn => 0x61
  | .randr => 0x62
  | .seedget => 0x63
  | .seedset => 0x64

/-- The reserved bits of `c8`, which must be 0 for the row to match: the upper half of the row's `mask` (R65). -/
def Op.reserved : Op → Byte
  | .setres => 0xFF
  | .setresa => 0xFF
  | .run => 0xFF
  | .endframe => 0xFF
  | .quit => 0xFF
  | .cbreg => 0xFE
  | .pset => 0x00
  | .pget => 0xFF
  | .clip => 0xFF
  | .clipget => 0xFF
  | .translate => 0xFF
  | .clear => 0x00
  | .rect => 0x00
  | .rectf => 0x00
  | .circ => 0x00
  | .circf => 0x00
  | .line => 0x00
  | .glyphget => 0x00
  | .glyphset => 0x00
  | .print => 0x00
  | .sprite => 0x00
  | .colorget => 0x00
  | .colorset => 0x00
  | .btn => 0xFF
  | .btnp => 0xFF
  | .mouse => 0xFF
  | .textget => 0xFF
  | .randu => 0xFF
  | .randn => 0xFF
  | .randr => 0xFF
  | .seedget => 0xFF
  | .seedset => 0xFF

/-- `fixed`, the number of operand words before any DATA words (R65). -/
def Op.fixed : Op → Nat
  | .setres => 1
  | .setresa => 2
  | .run => 0
  | .endframe => 0
  | .quit => 0
  | .cbreg => 0
  | .pset => 1
  | .pget => 1
  | .clip => 2
  | .clipget => 0
  | .translate => 1
  | .clear => 0
  | .rect => 2
  | .rectf => 2
  | .circ => 2
  | .circf => 2
  | .line => 2
  | .glyphget => 0
  | .glyphset => 1
  | .print => 2
  | .sprite => 3
  | .colorget => 0
  | .colorset => 3
  | .btn => 0
  | .btnp => 0
  | .mouse => 0
  | .textget => 0
  | .randu => 0
  | .randn => 1
  | .randr => 2
  | .seedget => 0
  | .seedset => 1

/-! ### Header fields (R61) -/

/-- `h[7:0]`. -/
def opField (h : Word) : Byte := h.extractLsb' 0 8

/-- `h[15:8]`. -/
def c8Field (h : Word) : Byte := h.extractLsb' 8 8

/-- `h[31:16]`. -/
def nwField (h : Word) : BitVec 16 := h.extractLsb' 16 16

/-- The header word with these three fields. -/
def mkHeader (op c8 : Byte) (nw : BitVec 16) : Word :=
  op.setWidth 32 ||| c8.setWidth 32 <<< 8 ||| nw.setWidth 32 <<< 16

/-- The row of the opcode map a header selects: `h & mask == match`, read field by field (R65). -/
def selectRow (h : Word) : Option Op :=
  Op.all.find? fun o => opField h == o.code && c8Field h &&& o.reserved == 0

/-! ### Operand words and payloads (R62, R63) -/

/-- The low and high halves of an operand word. -/
def lowHalf (w : Word) : BitVec 16 := w.extractLsb' 0 16

def highHalf (w : Word) : BitVec 16 := w.extractLsb' 16 16

/-- The operand word with these halves. -/
def joinHalves (lo hi : BitVec 16) : Word := lo.setWidth 32 ||| hi.setWidth 32 <<< 16

/-- `XY` (R62). -/
def xyOf (w : Word) : XY := ⟨lowHalf w, highHalf w⟩

/-- `WH` (R62). -/
def whOf (w : Word) : WH := ⟨lowHalf w, highHalf w⟩

/-- `RAD` (R62). -/
def radOf (w : Word) : RAD := ⟨lowHalf w, highHalf w⟩

def XY.word (p : XY) : Word := joinHalves p.a p.b

def WH.word (p : WH) : Word := joinHalves p.w p.h

def RAD.word (p : RAD) : Word := joinHalves p.r p.reserved

/-- The number of DATA words of a payload of `n` bytes, `ceil(n/4)` (R63). -/
def dataWords (n : Nat) : Nat := (n + 3) / 4

/-- The four bytes of a DATA word, byte 0 in bits [7:0] (R63). -/
def wordBytes (w : Word) : List Byte :=
  [w.extractLsb' 0 8, w.extractLsb' 8 8, w.extractLsb' 16 8, w.extractLsb' 24 8]

/-- The word with these four bytes, the first in bits [7:0] (R63). -/
def mkDataWord (b0 b1 b2 b3 : Byte) : Word :=
  b0.setWidth 32 ||| b1.setWidth 32 <<< 8 ||| b2.setWidth 32 <<< 16 ||| b3.setWidth 32 <<< 24

/-- The first `n` bytes of a payload; the padding after them is ignored (R63). -/
def unpackBytes (n : Nat) (ws : List Word) : List Byte := (ws.flatMap wordBytes).take n

/-- A byte string as DATA words; the padding is zero (R63). -/
def packBytes : List Byte → List Word
  | [] => []
  | [a] => [mkDataWord a 0 0 0]
  | [a, b] => [mkDataWord a b 0 0]
  | [a, b, c] => [mkDataWord a b c 0]
  | a :: b :: c :: d :: rest => mkDataWord a b c d :: packBytes rest

/-! ### Operand lists: exactly as many words as the command requires, or a wrong count (R66, test 2) -/

def args0 (nw : BitVec 16) : List Word → Args Unit
  | [] => .ok ()
  | _ => .wrongCount nw

def args1 {α : Type} (nw : BitVec 16) (f : Word → α) : List Word → Args α
  | [w1] => .ok (f w1)
  | _ => .wrongCount nw

def args2 {α : Type} (nw : BitVec 16) (f : Word → Word → α) : List Word → Args α
  | [w1, w2] => .ok (f w1 w2)
  | _ => .wrongCount nw

def args3 {α : Type} (nw : BitVec 16) (f : Word → Word → Word → α) : List Word → Args α
  | [w1, w2, w3] => .ok (f w1 w2 w3)
  | _ => .wrongCount nw

/-- The bytes of `LEN(len)` followed by DATA words, if there are exactly `ceil(len/4)` of these. -/
def payload (len : Word) (data : List Word) : Option (List Byte) :=
  if data.length = dataWords len.toNat then some (unpackBytes len.toNat data) else none

def argsLen (nw : BitVec 16) : List Word → Args (List Byte)
  | len :: data =>
    match payload len data with
    | some bs => .ok bs
    | none => .wrongCount nw
  | _ => .wrongCount nw

def argsXyLen (nw : BitVec 16) : List Word → Args (XY × List Byte)
  | w1 :: len :: data =>
    match payload len data with
    | some bs => .ok (xyOf w1, bs)
    | none => .wrongCount nw
  | _ => .wrongCount nw

def argsXyWhLen (nw : BitVec 16) : List Word → Args (XY × WH × List Byte)
  | w1 :: w2 :: len :: data =>
    match payload len data with
    | some bs => .ok (xyOf w1, whOf w2, bs)
    | none => .wrongCount nw
  | _ => .wrongCount nw

/-- The command a row makes of its `c8` field and its operand words (R65). -/
def decodeRow (o : Op) (c8 : Byte) (nw : BitVec 16) (ws : List Word) : Instr :=
  match o with
  | .setres => .setres (args1 nw xyOf ws)
  | .setresa => .setresa (args2 nw (fun u v => (xyOf u, v)) ws)
  | .run => .run (args0 nw ws)
  | .endframe => .endframe (args0 nw ws)
  | .quit => .quit (args0 nw ws)
  | .cbreg => .cbreg (c8.getLsbD 0) (args0 nw ws)
  | .pset => .pset c8 (args1 nw xyOf ws)
  | .pget => .pget (args1 nw xyOf ws)
  | .clip => .clip (args2 nw (fun u v => (xyOf u, xyOf v)) ws)
  | .clipget => .clipget (args0 nw ws)
  | .translate => .translate (args1 nw xyOf ws)
  | .clear => .clear c8 (args0 nw ws)
  | .rect => .rect c8 (args2 nw (fun u v => (xyOf u, xyOf v)) ws)
  | .rectf => .rectf c8 (args2 nw (fun u v => (xyOf u, xyOf v)) ws)
  | .circ => .circ c8 (args2 nw (fun u v => (xyOf u, radOf v)) ws)
  | .circf => .circf c8 (args2 nw (fun u v => (xyOf u, radOf v)) ws)
  | .line => .line c8 (args2 nw (fun u v => (xyOf u, xyOf v)) ws)
  | .glyphget => .glyphget c8 (args0 nw ws)
  | .glyphset => .glyphset c8 (argsLen nw ws)
  | .print => .print c8 (argsXyLen nw ws)
  | .sprite => .sprite c8 (argsXyWhLen nw ws)
  | .colorget => .colorget c8 (args0 nw ws)
  | .colorset => .colorset c8 (args3 nw (fun u v w => (u, v, w)) ws)
  | .btn => .btn (args0 nw ws)
  | .btnp => .btnp (args0 nw ws)
  | .mouse => .mouse (args0 nw ws)
  | .textget => .textget (args0 nw ws)
  | .randu => .randu (args0 nw ws)
  | .randn => .randn (args1 nw id ws)
  | .randr => .randr (args2 nw Prod.mk ws)
  | .seedget => .seedget (args0 nw ws)
  | .seedset => .seedset (args1 nw id ws)

/-- What a list of words on the command port is. -/
inductive Decoded where
  /-- fewer words than the packet's header announces (R60), or none -/
  | incomplete
  /-- a whole packet whose header `h` selects no row (R66, test 1), and the words after it -/
  | illegal (h : Word) (rest : List Word)
  /-- a whole packet of the command `i`, and the words after it -/
  | command (i : Instr) (rest : List Word)
  deriving DecidableEq, Repr

/-- Decoding, total on any words (R60, R66): exactly `1 + nw` words are consumed, whatever the opcode. -/
def decode : List Word → Decoded
  | [] => .incomplete
  | h :: rest =>
    let nw := nwField h
    if rest.length < nw.toNat then .incomplete
    else match selectRow h with
      | none => .illegal h (rest.drop nw.toNat)
      | some o => .command (decodeRow o (c8Field h) nw (rest.take nw.toNat)) (rest.drop nw.toNat)

/-! ### The encoder, from the same tables -/

/-- The row of a command. -/
def Instr.op : Instr → Op
  | .setres _ => .setres
  | .setresa _ => .setresa
  | .run _ => .run
  | .endframe _ => .endframe
  | .quit _ => .quit
  | .cbreg _ _ => .cbreg
  | .pset _ _ => .pset
  | .pget _ => .pget
  | .clip _ => .clip
  | .clipget _ => .clipget
  | .translate _ => .translate
  | .clear _ _ => .clear
  | .rect _ _ => .rect
  | .rectf _ _ => .rectf
  | .circ _ _ => .circ
  | .circf _ _ => .circf
  | .line _ _ => .line
  | .glyphget _ _ => .glyphget
  | .glyphset _ _ => .glyphset
  | .print _ _ => .print
  | .sprite _ _ => .sprite
  | .colorget _ _ => .colorget
  | .colorset _ _ => .colorset
  | .btn _ => .btn
  | .btnp _ => .btnp
  | .mouse _ => .mouse
  | .textget _ => .textget
  | .randu _ => .randu
  | .randn _ => .randn
  | .randr _ => .randr
  | .seedget _ => .seedget
  | .seedset _ => .seedset

/-- The `c8` field of a command: 0 where the row reserves it (R61, R65). -/
def Instr.c8 : Instr → Byte
  | .setres _ => 0
  | .setresa _ => 0
  | .run _ => 0
  | .endframe _ => 0
  | .quit _ => 0
  | .cbreg en _ => if en then 1 else 0
  | .pset c _ => c
  | .pget _ => 0
  | .clip _ => 0
  | .clipget _ => 0
  | .translate _ => 0
  | .clear c _ => c
  | .rect c _ => c
  | .rectf c _ => c
  | .circ c _ => c
  | .circf c _ => c
  | .line c _ => c
  | .glyphget c _ => c
  | .glyphset c _ => c
  | .print c _ => c
  | .sprite c _ => c
  | .colorget c _ => c
  | .colorset c _ => c
  | .btn _ => 0
  | .btnp _ => 0
  | .mouse _ => 0
  | .textget _ => 0
  | .randu _ => 0
  | .randn _ => 0
  | .randr _ => 0
  | .seedget _ => 0
  | .seedset _ => 0

/-- The operand words of operands `a` (R62, R63); for a wrong count, that many zero words. -/
def Args.words {α : Type} (f : α → List Word) : Args α → List Word
  | .ok v => f v
  | .wrongCount nw => List.replicate nw.toNat 0

/-- The `nw` field of operands `a`. -/
def Args.nw {α : Type} (f : α → List Word) : Args α → BitVec 16
  | .ok v => BitVec.ofNat 16 (f v).length
  | .wrongCount nw => nw

/-- The operand words of each operand shape. -/
def wordsUnit (_ : Unit) : List Word := []

def wordsXy (p : XY) : List Word := [p.word]

def wordsXyWord (p : XY × Word) : List Word := [p.1.word, p.2]

def wordsXyXy (p : XY × XY) : List Word := [p.1.word, p.2.word]

def wordsXyRad (p : XY × RAD) : List Word := [p.1.word, p.2.word]

def wordsLen (bs : List Byte) : List Word := BitVec.ofNat 32 bs.length :: packBytes bs

def wordsXyLen (p : XY × List Byte) : List Word := p.1.word :: wordsLen p.2

def wordsXyWhLen (p : XY × WH × List Byte) : List Word := p.1.word :: p.2.1.word :: wordsLen p.2.2

def words3 (p : Word × Word × Word) : List Word := [p.1, p.2.1, p.2.2]

def words2 (p : Word × Word) : List Word := [p.1, p.2]

def words1 (w : Word) : List Word := [w]

/-- The operand words of a command. -/
def Instr.operandWords : Instr → List Word
  | .setres a => a.words wordsXy
  | .setresa a => a.words wordsXyWord
  | .run a => a.words wordsUnit
  | .endframe a => a.words wordsUnit
  | .quit a => a.words wordsUnit
  | .cbreg _ a => a.words wordsUnit
  | .pset _ a => a.words wordsXy
  | .pget a => a.words wordsXy
  | .clip a => a.words wordsXyXy
  | .clipget a => a.words wordsUnit
  | .translate a => a.words wordsXy
  | .clear _ a => a.words wordsUnit
  | .rect _ a => a.words wordsXyXy
  | .rectf _ a => a.words wordsXyXy
  | .circ _ a => a.words wordsXyRad
  | .circf _ a => a.words wordsXyRad
  | .line _ a => a.words wordsXyXy
  | .glyphget _ a => a.words wordsUnit
  | .glyphset _ a => a.words wordsLen
  | .print _ a => a.words wordsXyLen
  | .sprite _ a => a.words wordsXyWhLen
  | .colorget _ a => a.words wordsUnit
  | .colorset _ a => a.words words3
  | .btn a => a.words wordsUnit
  | .btnp a => a.words wordsUnit
  | .mouse a => a.words wordsUnit
  | .textget a => a.words wordsUnit
  | .randu a => a.words wordsUnit
  | .randn a => a.words words1
  | .randr a => a.words words2
  | .seedget a => a.words wordsUnit
  | .seedset a => a.words words1

/-- The `nw` field of a command. -/
def Instr.nw : Instr → BitVec 16
  | .setres a => a.nw wordsXy
  | .setresa a => a.nw wordsXyWord
  | .run a => a.nw wordsUnit
  | .endframe a => a.nw wordsUnit
  | .quit a => a.nw wordsUnit
  | .cbreg _ a => a.nw wordsUnit
  | .pset _ a => a.nw wordsXy
  | .pget a => a.nw wordsXy
  | .clip a => a.nw wordsXyXy
  | .clipget a => a.nw wordsUnit
  | .translate a => a.nw wordsXy
  | .clear _ a => a.nw wordsUnit
  | .rect _ a => a.nw wordsXyXy
  | .rectf _ a => a.nw wordsXyXy
  | .circ _ a => a.nw wordsXyRad
  | .circf _ a => a.nw wordsXyRad
  | .line _ a => a.nw wordsXyXy
  | .glyphget _ a => a.nw wordsUnit
  | .glyphset _ a => a.nw wordsLen
  | .print _ a => a.nw wordsXyLen
  | .sprite _ a => a.nw wordsXyWhLen
  | .colorget _ a => a.nw wordsUnit
  | .colorset _ a => a.nw words3
  | .btn a => a.nw wordsUnit
  | .btnp a => a.nw wordsUnit
  | .mouse a => a.nw wordsUnit
  | .textget a => a.nw wordsUnit
  | .randu a => a.nw wordsUnit
  | .randn a => a.nw words1
  | .randr a => a.nw words2
  | .seedget a => a.nw wordsUnit
  | .seedset a => a.nw words1

/-- The header word of a command (R61). -/
def Instr.header (i : Instr) : Word := mkHeader i.op.code i.c8 i.nw

/-- The packet of a command (R60). -/
def encode (i : Instr) : List Word := i.header :: i.operandWords

/-! ### Event records (R68) -/

/-- One record of the event port, as its two words. -/
structure EventRec where
  e0 : Word
  e1 : Word
  deriving DecidableEq, Repr

/-- What an event record says. -/
inductive Event where
  | btnDown (src : BitVec 24)
  | btnUp (src : BitVec 24)
  | mouseMove (mx my : BitVec 16)
  | text (byte : Byte)
  | close
  | devAdded (id : Word)
  | devRemoved (id : Word)
  | other (kind : Byte)
  deriving DecidableEq, Repr

/-- `kind = e0[7:0]`, `arg = e0[31:8]`, `data = e1`; fields a kind ignores are not looked at (R68). -/
def EventRec.decode (e : EventRec) : Event :=
  let kind : Byte := e.e0.extractLsb' 0 8
  let arg : BitVec 24 := e.e0.extractLsb' 8 24
  if kind = 0x01 then .btnDown arg
  else if kind = 0x02 then .btnUp arg
  else if kind = 0x03 then .mouseMove (lowHalf e.e1) (highHalf e.e1)
  else if kind = 0x04 then .text (arg.extractLsb' 0 8)
  else if kind = 0x05 then .close
  else if kind = 0x06 then .devAdded e.e1
  else if kind = 0x07 then .devRemoved e.e1
  else .other kind

/-! ### One table row's word -/

/-- The words of the packet whose bits are `w`, bit 0 of the header first and later words counting on from it;
bits from `nbits` up are 0. -/
def tableWords (nbits w : Nat) : List Word :=
  let v := w % 2 ^ nbits
  let h := BitVec.ofNat 32 v
  h :: (List.range (nwField h).toNat).map fun k => BitVec.ofNat 32 (v >>> (32 * (k + 1)))

/-- The command the decoder reads from the packet whose bits are `w`. -/
def decodeTableWord (nbits w : Nat) : Option Instr :=
  match decode (tableWords nbits w) with
  | .command i _ => some i
  | _ => none

end Sys2Proof
end

