-- ==== Sys2Proof/Machine/State.lean ====
section
/-! DEFINITION. The state of the block (R29), of its ports (R170) and of the agents around it (R8), as plain data;
the reasons a step can stop; and the state after reset (R181). -/

namespace Sys2Proof.Machine

/-- The ten phases (R11, R142). -/
inductive Phase where
  | setup | top | clearin | drain | time | callback | present | vsync | halted | faulted
  deriving DecidableEq, Repr

/-- Storage by address: the framebuffer's written cells, keyed by the row-major index `y * W + x` (R41; log 18), addresses
strictly rising. An address that is not listed has no value of its own: it was never written since the last reset or
resolution change, and reads as a free byte (R13; log 3). -/
abbrev Memory := List Host.Cell

/-- The canonical form: addresses strictly rising. -/
def Memory.wf : Memory → Bool
  | [] => true
  | [_] => true
  | a :: b :: m => decide (a.1 < b.1) && Memory.wf (b :: m)

/-- A response (R64): the status and the result words. -/
structure Response where
  status : Byte
  results : List Word
  deriving DecidableEq, Repr

/-- A record on the display port (R69). -/
inductive DisplayRecord where
  | mode (w h : BitVec 16) (aspectEn : Bool) (aspect : Word)
  | frame (pixels : List (BitVec 24))
  deriving DecidableEq, Repr

/-- A FRAME_START record on the callback port (R70): `dt` as binary64 bits, low word first. -/
structure FrameStart where
  lo : Word
  hi : Word
  deriving DecidableEq, Repr

/-- One turn of an agent (R8). The list of turns still to come says, as plain data, which agent acts next (log 1). -/
inductive Turn where
  /-- the block: a step of SEQUENCER, or the execution of a packet HOST has on the command port -/
  | block
  /-- HOST issues words on the command port (R60) -/
  | host (ws : List Word)
  /-- PLATFORM appends an event record (R156) -/
  | platform (e : EventRec)
  /-- PLATFORM's set of controller-capable devices becomes this one (R119) -/
  | hotplug (ids : List Word)
  /-- DISPLAY sends PRESENT_DONE (R152) -/
  | display
  /-- CLOCK's count becomes this one (R70) -/
  | clock (t : BitVec 64)
  /-- reset is applied (R180) -/
  | reset
  deriving DecidableEq, Repr

/-- The state. The names of R29's elements, then the ports, the agents' inputs and the model's own fields. -/
structure State where
  /-- the implementation's parameters (R4), changed by nothing -/
  params : Params
  /-- `PHASE` (R11) -/
  phase : Phase
  /-- `W`, `H` (R12) -/
  w : BitVec 16
  h : BitVec 16
  /-- `FB` (R13): the cells written since the last reset or resolution change -/
  fb : Memory
  /-- `XL`, `YL`, `XH`, `YH` (R14), signed -/
  xl : BitVec 16
  yl : BitVec 16
  xh : BitVec 16
  yh : BitVec 16
  /-- `DX`, `DY` (R15), signed -/
  dx : BitVec 16
  dy : BitVec 16
  /-- `ASPECT_EN`, `ASPECT` (R28) -/
  aspectEn : Bool
  aspect : Word
  /-- `PAL` (R16) -/
  pal : Vector Rgb 16
  /-- `GLYPH` (R17) -/
  glyph : Vector Glyph 128
  /-- `DOWN`, `PRESSED` (R19) -/
  down : BitVec 10
  pressed : BitVec 10
  /-- `MX`, `MY` (R20), signed -/
  mx : BitVec 16
  my : BitVec 16
  /-- `TEXT[0..TLEN-1]` (R21); `TLEN` is its length -/
  text : List Byte
  /-- `SEED` (R22) -/
  seed : Word
  /-- `QUIT`, `CB_EN` (R23) -/
  quit : Bool
  cbEn : Bool
  /-- `ERR`, `ERRCMD` (R24) -/
  err : Byte
  errcmd : Word
  /-- `LASTT` (R25) -/
  lastt : BitVec 64
  /-- `EVQ` (R26), oldest first -/
  evq : List EventRec
  /-- `OPEN` (R27), ids strictly rising (log 10) -/
  opened : List Word
  /-- command port (R60, R183): the words of the packet HOST has issued and the block has not consumed, oldest first
  (log 5) -/
  cmdPort : List Word
  /-- response port (R64): every response sent, oldest first (log 6) -/
  rspPort : List Response
  /-- display port (R69): every record sent, oldest first (log 6) -/
  dispPort : List DisplayRecord
  /-- callback port (R70): every FRAME_START sent, oldest first (log 6) -/
  cbPort : List FrameStart
  /-- time port `NOW` (R70) -/
  now : BitVec 64
  /-- the controller-capable devices PLATFORM reports now, `P` of R119 -/
  devices : List Word
  /-- the agents' turns still to come (log 1) -/
  turns : List Turn
  /-- the model's own: the number of the current draw of unspecified values (log 3) -/
  draws : Nat
  deriving DecidableEq, Repr

/-- Why the machine stops. Raised by `step` only, and safe: the spec gives the block no step there. -/
inductive Fault where
  /-- raised by `step` on a turn of the block in phase HALTED: the run is over (R155, R157). Safe. -/
  | runHalted
  /-- raised by `step` on a turn of the block in phase FAULTED: the run is over (R164, R157). Safe. -/
  | runFaulted
  deriving DecidableEq, Repr

/-- What has no meaning in the model. -/
inductive Refusal where
  /-- raised by `exec` for an instruction without a meaning yet; no arm of this model raises it. Safe. -/
  | notModelled (mnemonic : String)
  /-- raised by `step` when CLOCK's count decreases, or stands below `LASTT` in the TIME step, which the spec assumes
  never to happen (R169, U11). Safe. -/
  | clockDecreased
  /-- raised by `step` when HOST sends words that would stand beside a packet not yet answered, a step R183 and U6 do not
  give HOST (log 5). Safe. -/
  | secondPacket
  deriving DecidableEq, Repr

/-- The block after a reset under parameters `p` (R29, R181), `n` being the number of the draw of unspecified values,
with MODE sent, nothing else on the ports and no turn to come. -/
def State.resetWith (p : Params) (n : Nat) : State where
  params := p
  phase := .setup
  w := p.initW
  h := p.initH
  fb := []
  xl := 0
  yl := 0
  xh := p.initW
  yh := p.initH
  dx := 0
  dy := 0
  aspectEn := false
  aspect := Config.freeAspect n
  pal := p.palInit
  glyph := p.fontInit
  down := 0
  pressed := 0
  mx := 0
  my := 0
  text := []
  seed := 0
  quit := false
  cbEn := false
  err := 0
  errcmd := Config.freeErrcmd n
  lastt := Config.freeLastt n
  evq := []
  opened := []
  cmdPort := []
  rspPort := []
  dispPort := [.mode p.initW p.initH false (Config.freeAspect n)]
  cbPort := []
  now := 0
  devices := []
  turns := []
  draws := n

/-- The machine right after reset (R181). -/
def State.reset : State := State.resetWith Config.params 0

/-- What a meaning or a step answers. -/
abbrev Result := Host.Outcome State Fault Refusal

end Sys2Proof.Machine
end

