-- ==== Sys2Proof/Machine/Ops.lean ====
section
/-! DEFINITION. The named operations over the state: one setter per piece of state, the framebuffer's checked write
and read (R42, R43), the new grid (R13, R80), responding (R64), fault entry (R163) and reset (R180). -/

namespace Sys2Proof.Machine

/-! ### Memory -/

/-- What the list holds for an address, if it holds anything. -/
def Memory.read? : Memory → Nat → Option Byte
  | [], _ => none
  | (b, v) :: m, a => if a = b then some v else Memory.read? m a

/-- Store `v` at address `a`, keeping addresses rising. -/
def Memory.write : Memory → Nat → Byte → Memory
  | [], a, v => [(a, v)]
  | (b, u) :: m, a, v =>
    if a < b then (a, v) :: (b, u) :: m
    else if a = b then (a, v) :: m
    else (b, u) :: Memory.write m a v

/-- Addresses `0` to `n - 1`, all holding `v`. -/
def Memory.filled (n : Nat) (v : Byte) : Memory := (List.range n).map fun a => (a, v)

/-! ### Setters, one per piece of state -/

def State.setPhase (s : State) (p : Phase) : State := { s with phase := p }

def State.setFb (s : State) (m : Memory) : State := { s with fb := m }

def State.setClip (s : State) (xl yl xh yh : BitVec 16) : State := { s with xl := xl, yl := yl, xh := xh, yh := yh }

def State.setOffset (s : State) (dx dy : BitVec 16) : State := { s with dx := dx, dy := dy }

def State.setAspectEn (s : State) (b : Bool) : State := { s with aspectEn := b }

def State.setAspect (s : State) (v : Word) : State := { s with aspect := v }

def State.setPal (s : State) (p : Vector Rgb 16) : State := { s with pal := p }

def State.setGlyphs (s : State) (g : Vector Glyph 128) : State := { s with glyph := g }

def State.setDown (s : State) (m : BitVec 10) : State := { s with down := m }

def State.setPressed (s : State) (m : BitVec 10) : State := { s with pressed := m }

def State.setMouse (s : State) (mx my : BitVec 16) : State := { s with mx := mx, my := my }

def State.setText (s : State) (t : List Byte) : State := { s with text := t }

def State.setSeed (s : State) (v : Word) : State := { s with seed := v }

def State.setQuit (s : State) (b : Bool) : State := { s with quit := b }

def State.setCbEn (s : State) (b : Bool) : State := { s with cbEn := b }

def State.setErr (s : State) (e : Byte) (h : Word) : State := { s with err := e, errcmd := h }

def State.setLastt (s : State) (t : BitVec 64) : State := { s with lastt := t }

def State.setEvq (s : State) (q : List EventRec) : State := { s with evq := q }

def State.setOpened (s : State) (ids : List Word) : State := { s with opened := ids }

def State.setCmdPort (s : State) (ws : List Word) : State := { s with cmdPort := ws }

def State.setNow (s : State) (t : BitVec 64) : State := { s with now := t }

def State.setDevices (s : State) (ids : List Word) : State := { s with devices := ids }

def State.setTurns (s : State) (ts : List Turn) : State := { s with turns := ts }

/-- A grid of `w` by `h` cells, every cell unspecified: the next draw of free bytes (R13, R80; log 3). -/
def State.newGrid (s : State) (w h : BitVec 16) : State :=
  { s with w := w, h := h, fb := [], draws := s.draws + 1 }

/-! ### Output ports -/

/-- Send a response (R64). -/
def State.sendResponse (s : State) (r : Response) : State := { s with rspPort := s.rspPort ++ [r] }

/-- Send a display record (R69). -/
def State.sendDisplay (s : State) (r : DisplayRecord) : State := { s with dispPort := s.dispPort ++ [r] }

/-- Send FRAME_START (R70). -/
def State.sendFrameStart (s : State) (f : FrameStart) : State := { s with cbPort := s.cbPort ++ [f] }

/-- `respond(v0, v1, ...)`: status OK and these result words (R7, R64). -/
def State.respond (s : State) (vs : List Word) : State := s.sendResponse ⟨0, vs⟩

/-- `nres` of R64. The field has 16 bits and R4 bounds no text: for more result words it is a free value, the model's
choice (log 12). -/
def resultCount (n : Nat) : BitVec 16 := if n < 2 ^ 16 then BitVec.ofNat 16 n else Config.freeResultCount n

/-- The words of a response on the port (R64): status in bits [7:0], the number of result words in bits [31:16]. -/
def Response.words (r : Response) : List Word := mkHeader r.status 0 (resultCount r.results.length) :: r.results

/-! ### Faults (R160, R163) -/

/-- The nine fault causes (R160). -/
inductive ErrCode where
  | illegal | arity | phase | dimension | slot | length | glyph | rangeEmpty | rangeOverflow
  deriving DecidableEq, Repr

/-- Their codes (R160). -/
def ErrCode.code : ErrCode → Byte
  | .illegal => 1
  | .arity => 2
  | .phase => 3
  | .dimension => 4
  | .slot => 5
  | .length => 6
  | .glyph => 7
  | .rangeEmpty => 8
  | .rangeOverflow => 9

/-- Fault entry (R163): record code and header word, answer with the code and no results, enter FAULTED. Nothing
else changes. There is no return from it (R164). -/
def State.raiseFault (s : State) (e : ErrCode) (h : Word) : State :=
  ((s.setErr e.code h).sendResponse ⟨e.code, []⟩).setPhase .faulted

/-- Run a command's own rule on its operands, or take ERR_ARITY if their count is wrong (R66, R162). -/
def withArgs {α : Type} (i : Instr) (a : Args α) (s : State) (k : α → Result) : Result :=
  match a with
  | .ok v => k v
  | .wrongCount _ => .next (s.raiseFault .arity i.header)

/-! ### The framebuffer (R42, R43) -/

/-- The byte in the cell with this row-major index: what was written, or the free byte of the current draw (R13). -/
def State.cell (s : State) (a : Nat) : Byte := (s.fb.read? a).getD (Config.freeCell s.draws a)

/-- `W` and `H` as integers. -/
def State.width (s : State) : Int := (s.w.toNat : Int)

def State.height (s : State) : Int := (s.h.toNat : Int)

/-- The row-major index of the cell at (x,y), for 0 <= x, 0 <= y (R41). -/
def State.cellIndex (s : State) (x y : Int) : Nat := y.toNat * s.w.toNat + x.toNat

/-- The framebuffer bounds test (R42, R43). -/
def State.inGrid (s : State) (x y : Int) : Bool :=
  decide (0 ≤ x ∧ x < s.width ∧ 0 ≤ y ∧ y < s.height)

/-- The clip test, bounds inclusive (R14, R42). -/
def State.inClip (s : State) (x y : Int) : Bool :=
  decide (s.xl.toInt ≤ x ∧ x ≤ s.xh.toInt ∧ s.yl.toInt ≤ y ∧ y ≤ s.yh.toInt)

/-- The index of the cell a pixel write at (x,y) lands in, if it lands: translation first, then both tests (R42). -/
def State.landing (s : State) (x y : Int) : Option Nat :=
  let tx := x + s.dx.toInt
  let ty := y + s.dy.toInt
  if s.inGrid tx ty && s.inClip tx ty then some (s.cellIndex tx ty) else none

/-- One call of `pset`: a colour byte and the coordinates before translation. -/
structure Pixel where
  c : Byte
  x : Int
  y : Int
  deriving DecidableEq, Repr

/-- The memory after one call of `pset` (R42): at most one cell written, the whole byte. -/
def State.plot (s : State) (m : Memory) (p : Pixel) : Memory :=
  match s.landing p.x p.y with
  | some a => m.write a p.c
  | none => m

/-- `pset(c, x, y)` (R42). -/
def State.pset (s : State) (c : Byte) (x y : Int) : State := s.setFb (s.plot s.fb ⟨c, x, y⟩)

/-- A sequence of `pset` calls, in order (R96). -/
def State.drawAll (s : State) (ps : List Pixel) : State := s.setFb (ps.foldl s.plot s.fb)

/-- `pget(x, y)` (R43): the low four bits of the cell, or 0 outside the grid. -/
def State.pget (s : State) (x y : Int) : BitVec 4 :=
  if s.inGrid x y then (s.cell (s.cellIndex x y)).setWidth 4 else 0

/-- Read of a palette entry (R16). -/
def State.color (s : State) (i : BitVec 4) : Rgb := s.pal.get i.toFin

/-- Read of a glyph (R17). -/
def State.glyphAt (s : State) (g : BitVec 7) : Glyph := s.glyph.get g.toFin

/-! ### Reset (R180, R181) -/

/-- Reset applied to a running block: every element of R29 at its reset value, unspecified values drawn anew, MODE
sent; the parameters, what is on the ports, the other agents' inputs and the turns to come stay (log 14). -/
def State.applyReset (s : State) : State :=
  let t := State.resetWith s.params (s.draws + 1)
  { t with cmdPort := s.cmdPort, rspPort := s.rspPort, dispPort := s.dispPort ++ t.dispPort, cbPort := s.cbPort,
           now := s.now, devices := s.devices, turns := s.turns }

end Sys2Proof.Machine
end

