-- ==== Sys2Proof/Machine/Operands.lean ====
section
/-! DEFINITION. The values of the operand forms (R62), the integer ranges the rules loop over, the ordering of two
bounds, and the binary64 rounding the generator and the clock use (R126, R128, R148). -/

namespace Sys2Proof.Machine

/-! ### Operand values (R62) -/

/-- The x-like value of an `XY` word, sign-extended. -/
def xVal (p : XY) : Int := p.a.toInt

/-- The y-like value of an `XY` word, sign-extended. -/
def yVal (p : XY) : Int := p.b.toInt

/-- The radius of a `RAD` word, sign-extended. -/
def radiusVal (r : RAD) : Int := r.r.toInt

/-- An `I32` word as an integer. -/
def i32 (w : Word) : Int := w.toInt

/-- An integer as a result word: its low 32 bits in two's complement (R64). -/
def toWord (v : Int) : Word := BitVec.ofInt 32 v

/-- `u8(v)`: the low eight bits (R5). -/
def u8 (w : Word) : Byte := w.setWidth 8

/-! ### Ranges and orderings -/

/-- `for v from lo to hi`, both ends included, empty when `hi < lo`. -/
def intRange (lo hi : Int) : List Int := (List.range (hi + 1 - lo).toNat).map fun (k : Nat) => lo + (k : Int)

/-- `if a > b then (a, b) <- (b, a)` (R84, R91, R92). -/
def ordered (a b : Int) : Int × Int := if b < a then (b, a) else (a, b)

/-- The same on signed 16-bit values (R84). -/
def orderedBits (a b : BitVec 16) : BitVec 16 × BitVec 16 := if b.toInt < a.toInt then (b, a) else (a, b)

/-! ### Rounding to binary64, to nearest, ties to even (R126, R128, R148) -/

/-- `n / d` rounded to the nearest integer, ties to even; `d > 0`. -/
def roundDivEven (n d : Nat) : Nat :=
  let q := n / d
  let r := n % d
  if 2 * r < d then q else if d < 2 * r then q + 1 else q + q % 2

/-- `floor(log2(n / d))` for `n, d > 0`. -/
def floorLog2Ratio (n d : Nat) : Int :=
  let e : Int := (n.log2 : Int) - (d.log2 : Int)
  if d * 2 ^ e.toNat ≤ n * 2 ^ (-e).toNat then e else e - 1

/-- The binary64 value nearest to `n / d` for `n, d > 0`, as a significand `m` and an exponent `e`: it is
`m * 2^(e - 52)`, with `e` at least -1022. -/
def nearest64 (n d : Nat) : Nat × Int :=
  let e := max (floorLog2Ratio n d) (-1022)
  (roundDivEven (n * 2 ^ (52 - e).toNat) (d * 2 ^ (e - 52).toNat), e)

/-- The bit pattern of the binary64 value nearest to `n / d`, `d > 0` (log 15). -/
def binary64 (n d : Nat) : BitVec 64 :=
  if n = 0 then 0
  else
    let (m, e) := nearest64 n d
    BitVec.ofNat 64 ((e + 1022).toNat * 2 ^ 52 + m)

/-- `floor(RN(n / d))`: the binary64 value nearest to `n / d`, rounded down to an integer (R128). -/
def floorRN (n d : Nat) : Nat :=
  if n = 0 then 0
  else
    let (m, e) := nearest64 n d
    m * 2 ^ (e - 52).toNat / 2 ^ (52 - e).toNat

/-- A 64-bit value as two result words, low word first (R64). -/
def words64 (v : BitVec 64) : List Word := [v.extractLsb' 0 32, v.extractLsb' 32 32]

end Sys2Proof.Machine
end

