-- ==== Sys2Proof/Machine/Font.lean ====
section
/-! DEFINITION. The font and sprite compositor commands (R100 to R104). -/

namespace Sys2Proof.Machine

/-- Row `r` of a glyph. -/
def glyphRow (g : Glyph) (r : Nat) : Byte := g[r]?.getD 0

/-- Eight bytes as a glyph, row 0 first (R101). -/
def glyphOfBytes (bs : List Byte) : Glyph := Vector.ofFn fun r => bs.getD r.val 0

/-- The pixels of one glyph with its left upper corner at (x,y): bit `i` of row `r` draws at (x+i, y+r) (R102). -/
def glyphPixels (c : Byte) (g : Glyph) (x y : Int) : List Pixel :=
  (List.range 8).flatMap fun r =>
    (List.range 8).filterMap fun i =>
      if (glyphRow g r).getLsbD i then some ⟨c, x + (i : Int), y + (r : Int)⟩ else none

/-- The pixels of a text (R102): each byte masked to 7 bits, x advancing by 8. -/
def printPixels (s : State) (c : Byte) : List Byte → Int → Int → List Pixel
  | [], _, _ => []
  | b :: text, x, y => glyphPixels c (s.glyphAt (b.setWidth 7)) x y ++ printPixels s c text (x + 8) y

/-- `SCM` (R18): the digits '1' to '9' give 1 to 9, the letters 'A' to 'F' and 'a' to 'f' give 10 to 15, everything
else 0. -/
def scm (b : BitVec 7) : BitVec 4 :=
  let n := b.toNat
  if 0x31 ≤ n ∧ n ≤ 0x39 then BitVec.ofNat 4 (n - 0x30)
  else if 0x41 ≤ n ∧ n ≤ 0x46 then BitVec.ofNat 4 (n - 0x41 + 10)
  else if 0x61 ≤ n ∧ n ≤ 0x66 then BitVec.ofNat 4 (n - 0x61 + 10)
  else 0

/-- `decode(b)` (R103): bytes 128 to 255 by the parameter SPRITE_HI. -/
def spriteColor (p : Params) (b : Byte) : BitVec 4 :=
  if b.toNat < 128 then scm (b.setWidth 7)
  else match p.spriteHi with
    | .mask7 => scm (b.setWidth 7)
    | .zero => 0

/-- The pixels of a sprite (R104): row-major data, the decoded colours that differ from the transparent value. -/
def spritePixels (p : Params) (t : Byte) (x y : Int) (w h : Nat) (data : List Byte) : List Pixel :=
  (List.range h).flatMap fun j =>
    (List.range w).filterMap fun i =>
      let col : Byte := (spriteColor p (data.getD (j * w + i) 0)).setWidth 8
      if col = t then none else some ⟨col, x + (i : Int), y + (j : Int)⟩

/-- GLYPHGET (R100). -/
def execGlyphget (code : Byte) (a : Args Unit) (s : State) : Result :=
  withArgs (.glyphget code a) a s fun _ =>
    if 127 < code.toNat then .next (s.raiseFault .glyph (Instr.glyphget code a).header)
    else .next (s.respond (packBytes (s.glyphAt (code.setWidth 7)).toList))

/-- GLYPHSET (R101). -/
def execGlyphset (code : Byte) (a : Args (List Byte)) (s : State) : Result :=
  withArgs (.glyphset code a) a s fun bs =>
    if 127 < code.toNat then .next (s.raiseFault .glyph (Instr.glyphset code a).header)
    else if bs.length ≠ 8 then .next (s.raiseFault .length (Instr.glyphset code a).header)
    else .next ((s.setGlyphs (s.glyph.set (code.setWidth 7).toNat (glyphOfBytes bs) (code.setWidth 7).isLt)).respond [])

/-- PRINT (R102). -/
def execPrint (c : Byte) (a : Args (XY × List Byte)) (s : State) : Result :=
  withArgs (.print c a) a s fun v =>
    .next ((s.drawAll (printPixels s c v.2 (xVal v.1) (yVal v.1))).respond [])

/-- SPRITE (R104). -/
def execSprite (t : Byte) (a : Args (XY × WH × List Byte)) (s : State) : Result :=
  withArgs (.sprite t a) a s fun v =>
    if v.2.2.length ≠ v.2.1.w.toNat * v.2.1.h.toNat then
      .next (s.raiseFault .length (Instr.sprite t a).header)
    else
      .next ((s.drawAll (spritePixels s.params t (xVal v.1) (yVal v.1) v.2.1.w.toNat v.2.1.h.toNat v.2.2)).respond [])

end Sys2Proof.Machine
end

