-- ==== Sys2Proof/Machine/Framebuffer.lean ====
section
/-! DEFINITION. The framebuffer and clipping commands (R80 to R86). -/

namespace Sys2Proof.Machine

/-- The dimension test of R80: both positive and below the maximum extents. -/
def dimensionsOk (p : Params) (width height : Int) : Bool :=
  decide (0 < width ∧ width < (p.maxW : Int) ∧ 0 < height ∧ height < (p.maxH : Int))

/-- The effect SETRES and SETRESA share, before MODE is sent: a new grid and the clip rectangle
(0, 0, width, height) (R80, R81). -/
def State.setResolution (s : State) (w h : BitVec 16) : State := (s.newGrid w h).setClip 0 0 w h

/-- Announce the resolution on the display port (R69). -/
def State.sendMode (s : State) : State := s.sendDisplay (.mode s.w s.h s.aspectEn s.aspect)

/-- SETRES (R80). -/
def execSetres (a : Args XY) (s : State) : Result :=
  withArgs (.setres a) a s fun p =>
    if dimensionsOk s.params (xVal p) (yVal p) then
      .next ((((s.setResolution p.a p.b).setAspectEn false).sendMode).respond [])
    else .next (s.raiseFault .dimension (Instr.setres a).header)

/-- SETRESA (R81). -/
def execSetresa (a : Args (XY × Word)) (s : State) : Result :=
  withArgs (.setresa a) a s fun v =>
    if dimensionsOk s.params (xVal v.1) (yVal v.1) then
      .next (((((s.setResolution v.1.a v.1.b).setAspectEn true).setAspect v.2).sendMode).respond [])
    else .next (s.raiseFault .dimension (Instr.setresa a).header)

/-- PSET (R82). -/
def execPset (c : Byte) (a : Args XY) (s : State) : Result :=
  withArgs (.pset c a) a s fun p => .next ((s.pset c (xVal p) (yVal p)).respond [])

/-- PGET (R83). -/
def execPget (a : Args XY) (s : State) : Result :=
  withArgs (.pget a) a s fun p => .next (s.respond [(s.pget (xVal p) (yVal p)).setWidth 32])

/-- CLIP (R84): the two axes are ordered independently. -/
def execClip (a : Args (XY × XY)) (s : State) : Result :=
  withArgs (.clip a) a s fun v =>
    let x := orderedBits v.1.a v.2.a
    let y := orderedBits v.1.b v.2.b
    .next ((s.setClip x.1 y.1 x.2 y.2).respond [])

/-- CLIPGET (R85). -/
def execClipget (a : Args Unit) (s : State) : Result :=
  withArgs (.clipget a) a s fun _ =>
    .next (s.respond [s.xl.signExtend 32, s.yl.signExtend 32, s.xh.signExtend 32, s.yh.signExtend 32])

/-- TRANSLATE (R86): the offset is absolute. -/
def execTranslate (a : Args XY) (s : State) : Result :=
  withArgs (.translate a) a s fun p => .next ((s.setOffset p.a p.b).respond [])

end Sys2Proof.Machine
end

