-- ==== Sys2Proof/Machine/Raster.lean ====
section
/-! DEFINITION. The rasterizer commands (R90 to R96). Each is a list of points, in the order its rule visits them,
drawn through `pset` with the command's colour byte (R96); CLEAR alone bypasses `pset` (R44, R90). -/

namespace Sys2Proof.Machine

/-- Draw these points with one colour (R96). -/
def State.drawPoints (s : State) (c : Byte) (ps : List (Int × Int)) : State :=
  s.drawAll (ps.map fun p => ⟨c, p.1, p.2⟩)

/-- The inclusive box, row by row (R91). -/
def boxPoints (x1 y1 x2 y2 : Int) : List (Int × Int) :=
  (intRange y1 y2).flatMap fun y => (intRange x1 x2).map fun x => (x, y)

/-- RECTF's points: the corners put in order, then the box (R91). -/
def rectfPoints (x1 y1 x2 y2 : Int) : List (Int × Int) :=
  let x := ordered x1 x2
  let y := ordered y1 y2
  boxPoints x.1 y.1 x.2 y.2

/-- RECT's points: top and bottom rows, then the sides of the interior rows (R92). -/
def rectPoints (x1 y1 x2 y2 : Int) : List (Int × Int) :=
  let x := ordered x1 x2
  let y := ordered y1 y2
  ((intRange x.1 x.2).flatMap fun u => [(u, y.1), (u, y.2)])
    ++ (intRange (y.1 + 1) (y.2 - 1)).flatMap fun v => [(x.1, v), (x.2, v)]

/-- The scan over `rx, ry` in `[-radius, radius]`, keeping the offsets whose squared distance lies between `inner`
and `radius * radius` (R93, R94). -/
def annulusPoints (cx cy radius inner : Int) : List (Int × Int) :=
  (intRange (-radius) radius).flatMap fun ry =>
    ((intRange (-radius) radius).filter fun rx =>
      decide (inner ≤ rx * rx + ry * ry ∧ rx * rx + ry * ry ≤ radius * radius)).map fun rx => (cx + rx, cy + ry)

/-- CIRCF's points (R93): `inner` is 0. -/
def circfPoints (cx cy radius : Int) : List (Int × Int) := annulusPoints cx cy radius 0

/-- CIRC's points (R94): `inner` is `(radius - 1)^2`. -/
def circPoints (cx cy radius : Int) : List (Int × Int) :=
  annulusPoints cx cy radius ((radius - 1) * (radius - 1))

/-- What stays fixed during one LINE (R95). -/
structure LineSetup where
  x2 : Int
  y2 : Int
  dx : Int
  dy : Int
  sx : Int
  sy : Int

/-- The loop of R95, for at most this many iterations: plot, stop at the end point, step by the saved `e2`. -/
def lineLoop (l : LineSetup) : Nat → Int → Int → Int → List (Int × Int)
  | 0, _, _, _ => []
  | n + 1, x, y, err =>
    (x, y) ::
      (if x = l.x2 ∧ y = l.y2 then []
       else
        let e2 := err
        let err1 := if -l.dx < e2 then err - l.dy else err
        let x1 := if -l.dx < e2 then x + l.sx else x
        let err2 := if e2 < l.dy then err1 + l.dx else err1
        let y1 := if e2 < l.dy then y + l.sy else y
        lineLoop l n x1 y1 err2)

/-- The setup of R95. -/
def lineSetup (x1 y1 x2 y2 : Int) : LineSetup where
  x2 := x2
  y2 := y2
  dx := ((x2 - x1).natAbs : Int)
  dy := ((y2 - y1).natAbs : Int)
  sx := if x1 < x2 then 1 else -1
  sy := if y1 < y2 then 1 else -1

/-- The initial error term of R95; `div` rounds toward zero (R6). -/
def lineErr (dx dy : Int) : Int := (if dy < dx then dx else -dy).tdiv 2

/-- LINE's points (R95). The loop ends after `max(dx,dy) + 1` iterations, so that many are allowed (log 16). -/
def linePoints (x1 y1 x2 y2 : Int) : List (Int × Int) :=
  let l := lineSetup x1 y1 x2 y2
  lineLoop l ((max l.dx l.dy).toNat + 1) x1 y1 (lineErr l.dx l.dy)

/-- CLEAR (R90): every cell, whatever the clip rectangle and the offset. -/
def execClear (c : Byte) (a : Args Unit) (s : State) : Result :=
  withArgs (.clear c a) a s fun _ => .next ((s.setFb (Memory.filled (s.w.toNat * s.h.toNat) c)).respond [])

/-- RECTF (R91). -/
def execRectf (c : Byte) (a : Args (XY × XY)) (s : State) : Result :=
  withArgs (.rectf c a) a s fun v =>
    .next ((s.drawPoints c (rectfPoints (xVal v.1) (yVal v.1) (xVal v.2) (yVal v.2))).respond [])

/-- RECT (R92). -/
def execRect (c : Byte) (a : Args (XY × XY)) (s : State) : Result :=
  withArgs (.rect c a) a s fun v =>
    .next ((s.drawPoints c (rectPoints (xVal v.1) (yVal v.1) (xVal v.2) (yVal v.2))).respond [])

/-- CIRCF (R93); a nonzero reserved half of the `RAD` word is ERR_ILLEGAL (R66, test 3). -/
def execCircf (c : Byte) (a : Args (XY × RAD)) (s : State) : Result :=
  withArgs (.circf c a) a s fun v =>
    if v.2.reserved = 0 then
      .next ((s.drawPoints c (circfPoints (xVal v.1) (yVal v.1) (radiusVal v.2))).respond [])
    else .next (s.raiseFault .illegal (Instr.circf c a).header)

/-- CIRC (R94); a nonzero reserved half of the `RAD` word is ERR_ILLEGAL (R66, test 3). -/
def execCirc (c : Byte) (a : Args (XY × RAD)) (s : State) : Result :=
  withArgs (.circ c a) a s fun v =>
    if v.2.reserved = 0 then
      .next ((s.drawPoints c (circPoints (xVal v.1) (yVal v.1) (radiusVal v.2))).respond [])
    else .next (s.raiseFault .illegal (Instr.circ c a).header)

/-- LINE (R95). -/
def execLine (c : Byte) (a : Args (XY × XY)) (s : State) : Result :=
  withArgs (.line c a) a s fun v =>
    .next ((s.drawPoints c (linePoints (xVal v.1) (yVal v.1) (xVal v.2) (yVal v.2))).respond [])

end Sys2Proof.Machine
end

