-- ==== Sys2Proof/Machine/Rng.lean ====
section
/-! DEFINITION. The xorshift generator's commands (R125 to R131). -/

namespace Sys2Proof.Machine

/-- The three shift-and-xor steps of R125. -/
def xorshift (s : Word) : Word :=
  let s1 := s ^^^ (s <<< 13)
  let s2 := s1 ^^^ (s1 >>> 17)
  s2 ^^^ (s2 <<< 5)

/-- The word `advance` leaves, from a word and RNG_FIX (R125): a zero word is replaced first. -/
def advanceWord (fix s : Word) : Word := xorshift (if s = 0 then fix else s)

/-- `advance()` (R125). -/
def State.advance (s : State) : State := s.setSeed (advanceWord s.params.rngFix s.seed)

/-- `floor(RN(u * width))` with `u = SEED / 2^32` (R128). -/
def scaledDraw (seed : Word) (width : Nat) : Nat := floorRN (seed.toNat * width) (2 ^ 32)

/-- A draw from `lo` on, of a range of this width (R127, R128). -/
def State.drawFrom (s : State) (lo : Int) (width : Nat) : State :=
  s.advance.respond [toWord ((scaledDraw s.advance.seed width : Int) + lo)]

/-- RANDU (R126): `SEED / 2^32` as binary64. -/
def execRandu (a : Args Unit) (s : State) : Result :=
  withArgs (.randu a) a s fun _ => .next (s.advance.respond (words64 (binary64 s.advance.seed.toNat (2 ^ 32))))

/-- RANDN (R127). -/
def execRandn (a : Args Word) (s : State) : Result :=
  withArgs (.randn a) a s fun n =>
    if i32 n < 1 then .next (s.raiseFault .rangeEmpty (Instr.randn a).header)
    else .next (s.drawFrom 1 (i32 n).toNat)

/-- RANDR (R128). -/
def execRandr (a : Args (Word × Word)) (s : State) : Result :=
  withArgs (.randr a) a s fun v =>
    let lo := i32 v.1
    let hi := i32 v.2
    if hi < lo then .next (s.raiseFault .rangeEmpty (Instr.randr a).header)
    else if 2 ^ 31 - 1 < hi - lo + 1 then .next (s.raiseFault .rangeOverflow (Instr.randr a).header)
    else .next (s.drawFrom lo (hi - lo + 1).toNat)

/-- SEEDGET (R129). -/
def execSeedget (a : Args Unit) (s : State) : Result :=
  withArgs (.seedget a) a s fun _ => .next (s.respond [s.seed])

/-- SEEDSET (R130). -/
def execSeedset (a : Args Word) (s : State) : Result :=
  withArgs (.seedset a) a s fun v => .next ((s.setSeed v).respond [])

end Sys2Proof.Machine
end

