-- ==== Sys2Proof/Machine/Flags.lean ====
section
/-! DEFINITION. The block has no condition codes (R23). What it has of flags: the ten bits of `DOWN` and `PRESSED`
(R19, R114, R115) and the source map that selects one of them. -/

namespace Sys2Proof.Machine

/-- The bit position of a logical button (R19). -/
def buttonIndex : Button → Nat
  | .a => 0
  | .b => 1
  | .x => 2
  | .y => 3
  | .up => 4
  | .down => 5
  | .left => 6
  | .right => 7
  | .start => 8
  | .select => 9

/-- `bit(b)`: the mask with only that button's bit set. -/
def buttonBit (n : Button) : BitVec 10 := BitVec.twoPow 10 (buttonIndex n)

/-- `BUTTON_MAP(src)` (R4): the listed button, or none. -/
def buttonMap (p : Params) (src : BitVec 24) : Option Button := p.buttonMap.lookup src

/-- A button goes down (R114): a transition from released to held is latched in `PRESSED`. -/
def State.pressButton (s : State) (n : Button) : State :=
  let s1 := if s.down &&& buttonBit n = 0 then s.setPressed (s.pressed ||| buttonBit n) else s
  s1.setDown (s1.down ||| buttonBit n)

/-- A button goes up (R115); `PRESSED` keeps its bit. -/
def State.releaseButton (s : State) (n : Button) : State := s.setDown (s.down &&& ~~~(buttonBit n))

end Sys2Proof.Machine
end

