-- ==== Sys2Proof/Machine/Input.lean ====
section
/-! DEFINITION. The input queries (R110 to R113) and the rules by which one event changes the input state
(R114 to R120). -/

namespace Sys2Proof.Machine

/-- BTN (R110). -/
def execBtn (a : Args Unit) (s : State) : Result :=
  withArgs (.btn a) a s fun _ => .next (s.respond [s.down.setWidth 32])

/-- BTNP (R111). -/
def execBtnp (a : Args Unit) (s : State) : Result :=
  withArgs (.btnp a) a s fun _ => .next (s.respond [s.pressed.setWidth 32])

/-- MOUSE (R112): the position minus the offset in force now. -/
def execMouse (a : Args Unit) (s : State) : Result :=
  withArgs (.mouse a) a s fun _ =>
    .next (s.respond [toWord (s.mx.toInt - s.dx.toInt), toWord (s.my.toInt - s.dy.toInt)])

/-- The `LEN` word of a text of `n` bytes (R62, R113). The word has 32 bits and R4 gives TEXT_CAP no upper limit: for a
longer text the spec states no word, and it is a free value, the model's choice (log 12). -/
def textLength (n : Nat) : Word := if n < 2 ^ 32 then BitVec.ofNat 32 n else Config.freeTextLen n

/-- TEXTGET (R113); for a text of 2^32 bytes or more the length word is free (log 12). -/
def execTextget (a : Args Unit) (s : State) : Result :=
  withArgs (.textget a) a s fun _ => .next (s.respond (textLength s.text.length :: packBytes s.text))

/-- Put an id into a strictly rising list of ids. -/
def insertId (v : Word) : List Word → List Word
  | [] => [v]
  | u :: ids =>
    if v.toNat < u.toNat then v :: u :: ids
    else if v = u then u :: ids
    else u :: insertId v ids

/-- The union of a strictly rising list of ids with any ids (R119; log 10). -/
def unionIds (ids new : List Word) : List Word := new.foldl (fun l v => insertId v l) ids

/-- TEXT (R117): a full buffer drops the byte. -/
def State.appendText (s : State) (b : Byte) : State :=
  if s.text.length < s.params.textCap then s.setText (s.text ++ [b]) else s

/-- The rescan (R119): every device PLATFORM reports is opened; none is closed. -/
def State.rescan (s : State) : State := s.setOpened (unionIds s.opened s.devices)

/-- One event applied (R114 to R120). -/
def applyEvent (s : State) : Event → State
  | .btnDown src =>
    match buttonMap s.params src with
    | some n => s.pressButton n
    | none => s
  | .btnUp src =>
    match buttonMap s.params src with
    | some n => s.releaseButton n
    | none => s
  | .mouseMove mx my => s.setMouse mx my
  | .text b => s.appendText b
  | .close => s.setQuit true
  | .devAdded _ => s.rescan
  | .devRemoved _ => s.rescan
  | .other _ => s

/-- The DRAIN step (R147): everything pending, oldest first, in one step. -/
def drainStep (s : State) : State :=
  (s.evq.foldl (fun t e => applyEvent t e.decode) (s.setEvq [])).setPhase .time

end Sys2Proof.Machine
end

