-- ==== Sys2Proof/Machine/Palette.lean ====
section
/-! DEFINITION. The palette commands (R135, R136) and the presenter (R137). -/

namespace Sys2Proof.Machine

/-- COLORGET (R135). -/
def execColorget (slot : Byte) (a : Args Unit) (s : State) : Result :=
  withArgs (.colorget slot a) a s fun _ =>
    if 15 < slot.toNat then .next (s.raiseFault .slot (Instr.colorget slot a).header)
    else
      let p := s.color (slot.setWidth 4)
      .next (s.respond [p.r.setWidth 32, p.g.setWidth 32, p.b.setWidth 32])

/-- COLORSET (R136). -/
def execColorset (slot : Byte) (a : Args (Word × Word × Word)) (s : State) : Result :=
  withArgs (.colorset slot a) a s fun v =>
    if 15 < slot.toNat then .next (s.raiseFault .slot (Instr.colorset slot a).header)
    else
      .next ((s.setPal (s.pal.set (slot.setWidth 4).toNat ⟨u8 v.1, u8 v.2.1, u8 v.2.2⟩ (slot.setWidth 4).isLt)).respond [])

/-- A palette entry as a display pixel, `r` in bits [23:16] (R69). -/
def rgbPixel (p : Rgb) : BitVec 24 := p.b.setWidth 24 ||| p.g.setWidth 24 <<< 8 ||| p.r.setWidth 24 <<< 16

/-- The pixels of a frame, row-major: the low four bits of every cell through the palette (R137). -/
def State.framePixels (s : State) : List (BitVec 24) :=
  (List.range (s.w.toNat * s.h.toNat)).map fun a => rgbPixel (s.color ((s.cell a).setWidth 4))

/-- The PRESENT step (R151). -/
def presentStep (s : State) : State := (s.sendDisplay (.frame s.framePixels)).setPhase .vsync

end Sys2Proof.Machine
end

