-- ==== Sys2Proof/Machine/Sequencer.lean ====
section
/-! DEFINITION. The sequencer's commands (R144, R150, R153, R154) and its steps TOP, CLEARIN and TIME (R145, R146,
R148); DRAIN stands with the events (R147), PRESENT with the presenter (R151). -/

namespace Sys2Proof.Machine

/-- RUN (R144). -/
def execRun (a : Args Unit) (s : State) : Result :=
  withArgs (.run a) a s fun _ =>
    if s.phase ≠ .setup then .next (s.raiseFault .phase (Instr.run a).header)
    else .next (((s.setLastt s.now).respond []).setPhase .top)

/-- ENDFRAME (R150). -/
def execEndframe (a : Args Unit) (s : State) : Result :=
  withArgs (.endframe a) a s fun _ =>
    if s.phase ≠ .callback then .next (s.raiseFault .phase (Instr.endframe a).header)
    else .next ((s.respond []).setPhase .present)

/-- QUIT (R153). -/
def execQuit (a : Args Unit) (s : State) : Result :=
  withArgs (.quit a) a s fun _ => .next ((s.setQuit true).respond [])

/-- CBREG (R154). -/
def execCbreg (en : Bool) (a : Args Unit) (s : State) : Result :=
  withArgs (.cbreg en a) a s fun _ => .next ((s.setCbEn en).respond [])

/-- The TOP step (R145). -/
def topStep (s : State) : State := if s.quit then s.setPhase .halted else s.setPhase .clearin

/-- The CLEARIN step (R146). -/
def clearinStep (s : State) : State := ((s.setPressed 0).setText []).setPhase .drain

/-- `dt` (R148): the binary64 value nearest to the elapsed counts over CLK_HZ. -/
def State.elapsed (s : State) : BitVec 64 := binary64 (s.now.toNat - s.lastt.toNat) s.params.clkHz

/-- FRAME_START's record (R70). -/
def frameStart (dt : BitVec 64) : FrameStart := ⟨dt.extractLsb' 0 32, dt.extractLsb' 32 32⟩

/-- The TIME step (R148). A count below `LASTT` is a clock that went backwards: refused (R169, U11). -/
def timeStep (s : State) : Result :=
  if s.now.toNat < s.lastt.toNat then .refused .clockDecreased
  else
    let t := s.setLastt s.now
    if s.cbEn then .next ((t.sendFrameStart (frameStart s.elapsed)).setPhase .callback)
    else .next (t.setPhase .present)

end Sys2Proof.Machine
end

