-- ==== Sys2Proof/Machine/Dispatch.lean ====
section
/-! DEFINITION. The dispatch of an accepted command to its meaning, one arm per constructor. -/

namespace Sys2Proof.Machine

def exec (i : Instr) (s : State) : Host.Outcome State Fault Refusal :=
  match i with
  | .setres a => Sys2Proof.Machine.execSetres a s
  | .setresa a => Sys2Proof.Machine.execSetresa a s
  | .run a => Sys2Proof.Machine.execRun a s
  | .endframe a => Sys2Proof.Machine.execEndframe a s
  | .quit a => Sys2Proof.Machine.execQuit a s
  | .cbreg en a => Sys2Proof.Machine.execCbreg en a s
  | .pset c a => Sys2Proof.Machine.execPset c a s
  | .pget a => Sys2Proof.Machine.execPget a s
  | .clip a => Sys2Proof.Machine.execClip a s
  | .clipget a => Sys2Proof.Machine.execClipget a s
  | .translate a => Sys2Proof.Machine.execTranslate a s
  | .clear c a => Sys2Proof.Machine.execClear c a s
  | .rect c a => Sys2Proof.Machine.execRect c a s
  | .rectf c a => Sys2Proof.Machine.execRectf c a s
  | .circ c a => Sys2Proof.Machine.execCirc c a s
  | .circf c a => Sys2Proof.Machine.execCircf c a s
  | .line c a => Sys2Proof.Machine.execLine c a s
  | .glyphget code a => Sys2Proof.Machine.execGlyphget code a s
  | .glyphset code a => Sys2Proof.Machine.execGlyphset code a s
  | .print c a => Sys2Proof.Machine.execPrint c a s
  | .sprite t a => Sys2Proof.Machine.execSprite t a s
  | .colorget slot a => Sys2Proof.Machine.execColorget slot a s
  | .colorset slot a => Sys2Proof.Machine.execColorset slot a s
  | .btn a => Sys2Proof.Machine.execBtn a s
  | .btnp a => Sys2Proof.Machine.execBtnp a s
  | .mouse a => Sys2Proof.Machine.execMouse a s
  | .textget a => Sys2Proof.Machine.execTextget a s
  | .randu a => Sys2Proof.Machine.execRandu a s
  | .randn a => Sys2Proof.Machine.execRandn a s
  | .randr a => Sys2Proof.Machine.execRandr a s
  | .seedget a => Sys2Proof.Machine.execSeedget a s
  | .seedset a => Sys2Proof.Machine.execSeedset a s

end Sys2Proof.Machine
end

