-- ==== Sys2Proof/Machine/Fetch.lean ====
section
/-! DEFINITION. What happens next: which agent acts (R8), command admission (R143), taking a packet from the command
port (R60, R66), and the other agents' steps. `step` only runs what this file chooses. -/

namespace Sys2Proof.Machine

/-- What a step does: execute a command on a state whose command port is past its packet, or something already
done. -/
inductive Action where
  | command (i : Instr) (s : State)
  | done (r : Result)

/-- Commands are admitted (R143). -/
def Phase.admits : Phase → Bool
  | .setup => true
  | .callback => true
  | _ => false

/-- Take the next packet from the command port (R60, R143). No whole packet: the block waits (log 9). A header no
row matches: ERR_ILLEGAL (R66, test 1). -/
def takeCommand (s : State) : Action :=
  match decode s.cmdPort with
  | .incomplete => .done (.next s)
  | .illegal h rest => .done (.next ((s.setCmdPort rest).raiseFault .illegal h))
  | .command i rest => .command i (s.setCmdPort rest)

/-- The block's own turn, by phase (R142). In VSYNC it waits for DISPLAY (R152); in HALTED and FAULTED it has no
step (R155, R164; log 9). -/
def blockTurn (s : State) : Action :=
  match s.phase with
  | .setup => takeCommand s
  | .top => .done (.next (topStep s))
  | .clearin => .done (.next (clearinStep s))
  | .drain => .done (.next (drainStep s))
  | .time => .done (timeStep s)
  | .callback => takeCommand s
  | .present => .done (.next (presentStep s))
  | .vsync => .done (.next s)
  | .halted => .done (.fault .runHalted)
  | .faulted => .done (.fault .runFaulted)

/-- PRESENT_DONE (R152): heard in VSYNC only (R168; log 17). -/
def presentDone (s : State) : State := if s.phase = .vsync then s.setPhase .top else s

/-- CLOCK's new count (R70); a smaller one is refused (R169, U11). -/
def clockTurn (s : State) (t : BitVec 64) : Result :=
  if t.toNat < s.now.toNat then .refused .clockDecreased else .next (s.setNow t)

/-- At most one packet: nothing, or a header and no more operand words than it announces (R60, R183). -/
def atMostOnePacket : List Word → Bool
  | [] => true
  | h :: ws => decide (ws.length ≤ (nwField h).toNat)

/-- HOST's turn (R60). HOST may send a packet in parts; words beside a packet not yet answered are a step the spec does
not give it, and refused by name (R183, U6; log 5). -/
def hostTurn (s : State) (ws : List Word) : Result :=
  if atMostOnePacket (s.cmdPort ++ ws) then .next (s.setCmdPort (s.cmdPort ++ ws)) else .refused .secondPacket

/-- One agent's turn (R8). -/
def takeTurn (s : State) : Turn → Action
  | .block => blockTurn s
  | .host ws => .done (hostTurn s ws)
  | .platform e => .done (.next (s.setEvq (s.evq ++ [e])))
  | .hotplug ids => .done (.next (s.setDevices ids))
  | .display => .done (.next (presentDone s))
  | .clock t => .done (clockTurn s t)
  | .reset => .done (.next s.applyReset)

/-- The next turn is taken off the list; when none is left the block acts (log 1). -/
def nextAction (s : State) : Action :=
  match s.turns with
  | [] => blockTurn s
  | t :: ts => takeTurn (s.setTurns ts) t

/-- The state with these words first on the command port, the block's turn next and commands admitted (log 13). -/
def State.placePacket (s : State) (ws : List Word) : State :=
  let t := (s.setCmdPort (ws ++ s.cmdPort)).setTurns []
  if t.phase.admits then t else t.setPhase .callback

end Sys2Proof.Machine
end

