-- ==== Sys2Proof/Machine/Step.lean ====
section
/-! DEFINITION. One step of the machine. -/

namespace Sys2Proof.Machine

/-- One atomic step of one agent (R8): what `nextAction` chooses. -/
def step (s : State) : Host.Outcome State Fault Refusal :=
  match nextAction s with
  | .command i t => exec i t
  | .done r => r

/-- `s` with the packet whose bits are `w` placed so that the next step takes and runs it (log 13). -/
def State.withFetchWord (s : State) (nbits w : Nat) : State := s.placePacket (tableWords nbits w)

end Sys2Proof.Machine
end

