-- ==== Sys2Proof/Safety.lean ====
section
/-! DEFINITION. What the claims are stated in: the invariant of the machine, the end of a run (R157), the record a
fault leaves (R163), and what a command leaves unchanged. -/

namespace Sys2Proof.Machine

/-- A list of ids is strictly rising, so that equal sets are equal lists (R27; log 10). -/
def risingIds : List Word → Bool
  | [] => true
  | [_] => true
  | u :: v :: ids => decide (u.toNat < v.toNat) && risingIds (v :: ids)

/-- The invariant: the parameters meet R4; the resolution is legal (R12); the clip bounds are ordered (R14); the
memory is canonical and lists cells of the grid only (R13); the text buffer is within its capacity (R21); `OPEN` is
strictly rising (R27); the phase is FAULTED exactly when `ERR` is not 0 (R24); the command port holds at most one
packet (R183; log 5). -/
structure State.Inv (s : State) : Prop where
  params : s.params.wf = true
  width : 0 < s.w.toNat ∧ s.w.toNat < s.params.maxW
  height : 0 < s.h.toNat ∧ s.h.toNat < s.params.maxH
  clipX : s.xl.toInt ≤ s.xh.toInt
  clipY : s.yl.toInt ≤ s.yh.toInt
  memory : s.fb.wf = true
  cells : ∀ c ∈ s.fb, c.1 < s.w.toNat * s.h.toNat
  text : s.text.length ≤ s.params.textCap
  opened : risingIds s.opened = true
  fault : s.phase = .faulted ↔ s.err ≠ 0
  port : atMostOnePacket s.cmdPort = true

/-- The next turn in `s` is the block's, and `u` is `s` with that turn used up: no turn is named and the block acts, or
the first of the list is the block's (log 1). -/
def BlockActs (s u : State) : Prop :=
  (s.turns = [] ∧ u = s) ∨ ∃ ts, s.turns = .block :: ts ∧ u = { s with turns := ts }

/-- The run is over (R157). -/
def State.over (s : State) : Prop := s.phase = .halted ∨ s.phase = .faulted

/-- `t` is `s` after a fault with this code raised by a command with header `h` (R163): `ERR`, `ERRCMD`, one response
with the code and no results, phase FAULTED; every other piece of state as in `s`. -/
def FaultEntered (s t : State) (e : ErrCode) (h : Word) : Prop :=
  t.err = e.code ∧ t.errcmd = h ∧ t.rspPort = s.rspPort ++ [⟨e.code, []⟩] ∧ t.phase = .faulted
    ∧ { t with err := s.err, errcmd := s.errcmd, rspPort := s.rspPort, phase := s.phase } = s

/-- `t` has answered with status OK and these result words, once more than `s` (R64). -/
def Answered (s t : State) (vs : List Word) : Prop := t.rspPort = s.rspPort ++ [⟨0, vs⟩]

/-- Every byte of the framebuffer reads in `t` as in `s`. -/
def SameCells (s t : State) : Prop := ∀ a : Nat, t.cell a = s.cell a

/-- `t` is `s` but for the response it sent: no other piece of state differs, and no cell. -/
def OnlyAnswered (s t : State) (vs : List Word) : Prop :=
  Answered s t vs ∧ SameCells s t ∧ { t with rspPort := s.rspPort } = s

/-- `t` is `s` after `pset` calls with the colour byte `c` at exactly the points of `pts` (before translation) and one
response without results: a cell some call lands in holds `c`, every other cell reads as before, and nothing else
differs. -/
def DrewPoints (s t : State) (c : Byte) (pts : Int → Int → Prop) : Prop :=
  Answered s t []
    ∧ (∀ x y a, pts x y → s.landing x y = some a → t.cell a = c)
    ∧ (∀ a, (∀ x y, pts x y → s.landing x y ≠ some a) → t.cell a = s.cell a)
    ∧ { t with fb := s.fb, rspPort := s.rspPort } = s

/-- The `mask` column of R65: the opcode where the row's `c8` names a value, the opcode and seven reserved bits for
CBREG, the opcode and all of `c8` for every other row. -/
def rowMask (o : Op) : Word :=
  if o ∈ [.pset, .clear, .rect, .rectf, .circ, .circf, .line, .glyphget, .glyphset, .print, .sprite, .colorget,
      .colorset] then 0x000000FF
  else if o = .cbreg then 0x0000FEFF
  else 0x0000FFFF

/-- Which operand word is `LEN` (R65, R67), counted from 0. -/
def lenIndex (o : Op) : Option Nat :=
  if o = .glyphset then some 0 else if o = .print then some 1 else if o = .sprite then some 2 else none

/-- The operand words of a packet are as many as its command requires (R66, test 2). -/
def OperandCountRight (o : Op) (ws : List Word) : Prop :=
  match lenIndex o with
  | none => ws.length = o.fixed
  | some k => o.fixed ≤ ws.length ∧ ws.length = o.fixed + (((ws.getD k 0).toNat + 3) / 4)

/-- The reserved half of the packet's `RAD` word, if the command has one (R66, test 3). -/
def radReserved (o : Op) (ws : List Word) : BitVec 16 :=
  if o = .circ ∨ o = .circf then (ws.getD 1 0).extractLsb' 16 16 else 0

/-- The operands of a command stand in it (R66, test 2 passed). -/
def hasOperands (i : Instr) : Bool :=
  match i with
  | .setres a | .pset _ a | .pget a | .translate a => a.wf fun _ => true
  | .setresa a => a.wf fun _ => true
  | .run a | .endframe a | .quit a | .cbreg _ a | .clipget a | .clear _ a | .glyphget _ a | .colorget _ a | .btn a
  | .btnp a | .mouse a | .textget a | .randu a | .seedget a => a.wf fun _ => true
  | .clip a | .rect _ a | .rectf _ a | .line _ a => a.wf fun _ => true
  | .circ _ a | .circf _ a => a.wf fun _ => true
  | .glyphset _ a => a.wf fun _ => true
  | .print _ a => a.wf fun _ => true
  | .sprite _ a => a.wf fun _ => true
  | .colorset _ a => a.wf fun _ => true
  | .randn a | .seedset a => a.wf fun _ => true
  | .randr a => a.wf fun _ => true

/-- The commands of R161 that never fault once decoded, in any phase (RUN and ENDFRAME are left out: these fault by
phase). -/
def neverFaults (o : Op) : Bool :=
  decide (o ∈ [.quit, .cbreg, .pset, .pget, .clip, .clipget, .translate, .clear, .rect, .rectf, .circ, .circf, .line,
    .print, .btn, .btnp, .mouse, .textget, .randu, .seedget, .seedset])

/-- The decoded colour of the sprite data byte at column `i`, row `j`, as the byte that is stored (R104). -/
def spriteByte (p : Params) (w : Nat) (data : List Byte) (i j : Nat) : Byte :=
  (spriteColor p (data.getD (j * w + i) 0)).setWidth 8

end Sys2Proof.Machine
end

