-- ==== Sys2Proof/Certificates/Slice0/Obligations.lean ====
section
/-! DEFINITION. The statements for the provers. Each docstring names the rules of spec/ it rests on. -/

open Sys2Proof Sys2Proof.Machine

/-! ### Packets and decoding -/

/-- R65: a header selects a row exactly when `h & mask == match`. -/
def Obligations.HeaderSelectsByMaskAndMatch : Prop :=
  ∀ (h : Word) (o : Op), selectRow h = some o ↔ h &&& rowMask o = o.code.setWidth 32

/-- R60 to R67: decoding the packet of a well-formed command gives the command back and consumes exactly it. -/
def Obligations.DecodeEncodeRoundTrip : Prop :=
  ∀ (i : Instr) (rest : List Word), i.wf = true → decode (encode i ++ rest) = .command i rest

/-- 95_test_vectors.md, 2.1: packets written out by the spec decode to the commands it names. -/
def Obligations.SpecPacketsDecode : Prop :=
  decode [0x00010001, 0x00500064] = .command (.setres (.ok ⟨100, 80⟩)) []
    ∧ decode [0x00011F10, 0x00030002] = .command (.pset 0x1F (.ok ⟨2, 3⟩)) []
    ∧ decode [0x00020924, 0x00040004, 0x0000FFFF] = .command (.circf 9 (.ok (⟨4, 4⟩, ⟨-1, 0⟩))) []
    ∧ decode [0x00030332, 0x0014000A, 0x00000001, 0x00000041] = .command (.print 3 (.ok (⟨10, 20⟩, [0x41]))) []
    ∧ decode [0x00030041, 0x0000012C, 0xFFFFFFFF, 0x00000100] = .command (.colorset 0 (.ok (300, -1, 256))) []
    ∧ decode [0x00000053] = .command (.textget (.ok ())) []
    ∧ decode [0x00010061, 0x00000006] = .command (.randn (.ok 6)) []
    ∧ decode [0x00000106] = .command (.cbreg true (.ok ())) []

/-- R60, R66, R162: a whole packet on the port of a block that admits commands is consumed and classified: no row,
ERR_ILLEGAL; wrong operand count, ERR_ARITY; reserved `RAD` bits, ERR_ILLEGAL; otherwise a well-formed command with
this header runs. The state `u` is `s` with the block's turn used up. -/
def Obligations.PacketsAreClassifiedInOrder : Prop :=
  ∀ (s u : State) (h : Word) (ws rest : List Word),
    BlockActs s u → (s.phase = .setup ∨ s.phase = .callback) → s.cmdPort = h :: (ws ++ rest)
      → ws.length = (nwField h).toNat →
    (selectRow h = none → ∃ t, step s = .next t ∧ FaultEntered { u with cmdPort := rest } t .illegal h)
    ∧ ∀ o, selectRow h = some o →
      (¬ OperandCountRight o ws → ∃ t, step s = .next t ∧ FaultEntered { u with cmdPort := rest } t .arity h)
      ∧ (OperandCountRight o ws → radReserved o ws ≠ 0 →
          ∃ t, step s = .next t ∧ FaultEntered { u with cmdPort := rest } t .illegal h)
      ∧ (OperandCountRight o ws → radReserved o ws = 0 →
          ∃ i, i.op = o ∧ i.header = h ∧ i.wf = true ∧ decode s.cmdPort = .command i rest
            ∧ step s = exec i { u with cmdPort := rest })

/-- R143, R51, R149: when commands are admitted and the words on the port decode to a command, a step of the block is
the command's meaning on the state past the packet; while there is no whole packet, the block waits and nothing
changes. The state `u` is `s` with the block's turn used up. The list of turns, and that a waiting block leaves the
state as it is, are the model's choice (logs 1 and 9). -/
def Obligations.StepRunsTheDecodedCommand : Prop :=
  (∀ s u : State, BlockActs s u → (s.phase = .setup ∨ s.phase = .callback) →
    (∀ i rest, decode s.cmdPort = .command i rest → step s = exec i { u with cmdPort := rest })
    ∧ (decode s.cmdPort = .incomplete → step s = .next u))
  ∧ ∀ ws : List Word, decode ws = .incomplete ↔ ∀ h us, ws = h :: us → us.length < (nwField h).toNat

/-- R66, R160: every command with a wrong operand count takes ERR_ARITY, whatever the state; and the nine causes have
the codes 1 to 9 of R160's table. -/
def Obligations.WrongOperandCountFaults : Prop :=
  (ErrCode.illegal.code = 1 ∧ ErrCode.arity.code = 2 ∧ ErrCode.phase.code = 3 ∧ ErrCode.dimension.code = 4
    ∧ ErrCode.slot.code = 5 ∧ ErrCode.length.code = 6 ∧ ErrCode.glyph.code = 7 ∧ ErrCode.rangeEmpty.code = 8
    ∧ ErrCode.rangeOverflow.code = 9)
  ∧ ∀ (i : Instr) (s : State), hasOperands i = false →
    ∃ t, exec i s = .next t ∧ FaultEntered s t .arity i.header

/-- R64: every command, on every state, completes with exactly one more response on the port. -/
def Obligations.EveryCommandAnswersOnce : Prop :=
  ∀ (i : Instr) (s : State), ∃ t r, exec i s = .next t ∧ t.rspPort = s.rspPort ++ [r]

/-! ### Framebuffer -/

/-- R42: `pset` translates, tests the framebuffer bounds and the clip rectangle, and stores the whole byte in the one
cell, or changes nothing. -/
def Obligations.PixelWriteIsTranslatedBoundedAndClipped : Prop :=
  ∀ (s : State) (c : Byte) (x y tx ty : Int), tx = x + s.dx.toInt → ty = y + s.dy.toInt →
    ((0 ≤ tx ∧ tx < s.w.toNat ∧ 0 ≤ ty ∧ ty < s.h.toNat
        ∧ s.xl.toInt ≤ tx ∧ tx ≤ s.xh.toInt ∧ s.yl.toInt ≤ ty ∧ ty ≤ s.yh.toInt) →
      s.landing x y = some (ty.toNat * s.w.toNat + tx.toNat)
      ∧ (s.pset c x y).cell (ty.toNat * s.w.toNat + tx.toNat) = c
      ∧ (∀ a, a ≠ ty.toNat * s.w.toNat + tx.toNat → (s.pset c x y).cell a = s.cell a)
      ∧ { s.pset c x y with fb := s.fb } = s)
    ∧ (¬ (0 ≤ tx ∧ tx < s.w.toNat ∧ 0 ≤ ty ∧ ty < s.h.toNat
        ∧ s.xl.toInt ≤ tx ∧ tx ≤ s.xh.toInt ∧ s.yl.toInt ≤ ty ∧ ty ≤ s.yh.toInt) →
      s.landing x y = none ∧ s.pset c x y = s)

/-- R82: PSET is one `pset` call. The packet has the form the opcode map gives it. -/
def Obligations.PsetDrawsItsPoint : Prop :=
  ∀ (s : State) (c : Byte) (p : XY),
    encode (.pset c (.ok p)) = [mkHeader 0x10 c 1, p.word] ∧
    ∃ t, exec (.pset c (.ok p)) s = .next t ∧ DrewPoints s t c (fun x y => x = p.a.toInt ∧ y = p.b.toInt)

/-- R83, R43: PGET responds the low four bits of the cell, or 0 outside the grid; clip and offset play no part. The
packet has the form the opcode map gives it. -/
def Obligations.PgetReadsTheMaskedCell : Prop :=
  ∀ (s : State) (p : XY), encode (.pget (.ok p)) = [mkHeader 0x11 0 1, p.word]
    ∧ ∃ t v, exec (.pget (.ok p)) s = .next t ∧ OnlyAnswered s t [v]
    ∧ ((0 ≤ p.a.toInt ∧ p.a.toInt < s.w.toNat ∧ 0 ≤ p.b.toInt ∧ p.b.toInt < s.h.toNat) →
        v.toNat = (s.cell (p.b.toInt.toNat * s.w.toNat + p.a.toInt.toNat)).toNat % 16)
    ∧ (¬ (0 ≤ p.a.toInt ∧ p.a.toInt < s.w.toNat ∧ 0 ≤ p.b.toInt ∧ p.b.toInt < s.h.toNat) → v = 0)

/-- R82, R83 (source property S1): a pixel write that lands is read back at the translated place as `c & 15`. -/
def Obligations.WrittenPixelReadsBackMasked : Prop :=
  ∀ (s : State) (c : Byte) (p q : XY) (a : Nat), s.landing p.a.toInt p.b.toInt = some a →
    q.a.toInt = p.a.toInt + s.dx.toInt → q.b.toInt = p.b.toInt + s.dy.toInt →
      ∃ t u, exec (.pset c (.ok p)) s = .next t ∧ exec (.pget (.ok q)) t = .next u
        ∧ OnlyAnswered t u [(c &&& 15).setWidth 32]

/-- R84, R85: CLIP stores the two corners with each axis put in order, verbatim; CLIPGET responds the four bounds,
sign-extended, and changes nothing. The packet has the form the opcode map gives it. -/
def Obligations.ClipStoresAndClipgetRespondsTheBounds : Prop :=
  (∀ (s : State) (p q : XY), encode (.clip (.ok (p, q))) = [mkHeader 0x12 0 2, p.word, q.word]
    ∧ ∃ t, exec (.clip (.ok (p, q))) s = .next t
      ∧ t.xl.toInt = min p.a.toInt q.a.toInt ∧ t.xh.toInt = max p.a.toInt q.a.toInt
      ∧ t.yl.toInt = min p.b.toInt q.b.toInt ∧ t.yh.toInt = max p.b.toInt q.b.toInt
      ∧ Answered s t [] ∧ SameCells s t
      ∧ { t with xl := s.xl, yl := s.yl, xh := s.xh, yh := s.yh, rspPort := s.rspPort } = s)
  ∧ ∀ s : State, encode (.clipget (.ok ())) = [mkHeader 0x13 0 0]
    ∧ ∃ t a b c d, exec (.clipget (.ok ())) s = .next t ∧ OnlyAnswered s t [a, b, c, d]
      ∧ a.toInt = s.xl.toInt ∧ b.toInt = s.yl.toInt ∧ c.toInt = s.xh.toInt ∧ d.toInt = s.yh.toInt

/-- R86: TRANSLATE replaces the offset and touches nothing else. The packet has the form the opcode map gives it. -/
def Obligations.TranslateReplacesTheOffset : Prop :=
  ∀ (s : State) (p : XY), encode (.translate (.ok p)) = [mkHeader 0x14 0 1, p.word]
    ∧ ∃ t, exec (.translate (.ok p)) s = .next t
    ∧ t.dx = p.a ∧ t.dy = p.b ∧ Answered s t [] ∧ SameCells s t
    ∧ { t with dx := s.dx, dy := s.dy, rspPort := s.rspPort } = s

/-- R80: SETRES makes a grid of unspecified cells (the free bytes of a new draw, log 3), sets the clip rectangle to (0,
0, width, height), clears ASPECT_EN and announces the mode; a dimension outside the limits is ERR_DIMENSION. The
packet has the form the opcode map gives it. -/
def Obligations.SetresMakesANewGrid : Prop :=
  ∀ (s : State) (p : XY),
    encode (.setres (.ok p)) = [mkHeader 0x01 0 1, p.word] ∧
    ((0 < p.a.toInt ∧ p.a.toInt < s.params.maxW ∧ 0 < p.b.toInt ∧ p.b.toInt < s.params.maxH) →
      ∃ t, exec (.setres (.ok p)) s = .next t ∧ t.w = p.a ∧ t.h = p.b
        ∧ (∀ a, t.cell a = Config.freeCell (s.draws + 1) a) ∧ t.draws = s.draws + 1
        ∧ t.xl = 0 ∧ t.yl = 0 ∧ t.xh = p.a ∧ t.yh = p.b ∧ t.aspectEn = false
        ∧ t.dispPort = s.dispPort ++ [.mode p.a p.b false s.aspect] ∧ Answered s t []
        ∧ { t with w := s.w, h := s.h, fb := s.fb, draws := s.draws, xl := s.xl, yl := s.yl, xh := s.xh, yh := s.yh,
                   aspectEn := s.aspectEn, dispPort := s.dispPort, rspPort := s.rspPort } = s)
    ∧ (¬ (0 < p.a.toInt ∧ p.a.toInt < s.params.maxW ∧ 0 < p.b.toInt ∧ p.b.toInt < s.params.maxH) →
      ∃ t, exec (.setres (.ok p)) s = .next t ∧ FaultEntered s t .dimension (Instr.setres (.ok p)).header)

/-- R81: SETRESA does as SETRES and keeps the aspect word. The packet has the form the opcode map gives it. The cells are
the free bytes of a new draw (log 3). -/
def Obligations.SetresaMakesANewGridWithAspect : Prop :=
  ∀ (s : State) (p : XY) (v : Word),
    encode (.setresa (.ok (p, v))) = [mkHeader 0x02 0 2, p.word, v] ∧
    ((0 < p.a.toInt ∧ p.a.toInt < s.params.maxW ∧ 0 < p.b.toInt ∧ p.b.toInt < s.params.maxH) →
      ∃ t, exec (.setresa (.ok (p, v))) s = .next t ∧ t.w = p.a ∧ t.h = p.b
        ∧ (∀ a, t.cell a = Config.freeCell (s.draws + 1) a) ∧ t.draws = s.draws + 1
        ∧ t.xl = 0 ∧ t.yl = 0 ∧ t.xh = p.a ∧ t.yh = p.b ∧ t.aspectEn = true ∧ t.aspect = v
        ∧ t.dispPort = s.dispPort ++ [.mode p.a p.b true v] ∧ Answered s t []
        ∧ { t with w := s.w, h := s.h, fb := s.fb, draws := s.draws, xl := s.xl, yl := s.yl, xh := s.xh, yh := s.yh,
                   aspectEn := s.aspectEn, aspect := s.aspect, dispPort := s.dispPort, rspPort := s.rspPort } = s)
    ∧ (¬ (0 < p.a.toInt ∧ p.a.toInt < s.params.maxW ∧ 0 < p.b.toInt ∧ p.b.toInt < s.params.maxH) →
      ∃ t, exec (.setresa (.ok (p, v))) s = .next t ∧ FaultEntered s t .dimension (Instr.setresa (.ok (p, v))).header)

/-! ### Rasterizer -/

/-- R90, R44: CLEAR writes every cell of the grid, whatever the clip rectangle and the offset. The packet has the form
the opcode map gives it. -/
def Obligations.ClearFillsTheGrid : Prop :=
  ∀ (s : State) (c : Byte), s.Inv → encode (.clear c (.ok ())) = [mkHeader 0x20 c 0]
    ∧ ∃ t, exec (.clear c (.ok ())) s = .next t
    ∧ (∀ a, a < s.w.toNat * s.h.toNat → t.cell a = c)
    ∧ (∀ a, s.w.toNat * s.h.toNat ≤ a → t.cell a = s.cell a)
    ∧ Answered s t [] ∧ { t with fb := s.fb, rspPort := s.rspPort } = s

/-- R91: RECTF draws the inclusive box of its corners, given in any order. The packet has the form the opcode map gives
it. -/
def Obligations.RectfDrawsTheBox : Prop :=
  ∀ (s : State) (c : Byte) (p q : XY), encode (.rectf c (.ok (p, q))) = [mkHeader 0x22 c 2, p.word, q.word]
    ∧ ∃ t, exec (.rectf c (.ok (p, q))) s = .next t
    ∧ DrewPoints s t c (fun x y => min p.a.toInt q.a.toInt ≤ x ∧ x ≤ max p.a.toInt q.a.toInt
        ∧ min p.b.toInt q.b.toInt ≤ y ∧ y ≤ max p.b.toInt q.b.toInt)

/-- R92: RECT draws the border of the inclusive box. The packet has the form the opcode map gives it. -/
def Obligations.RectDrawsTheBorder : Prop :=
  ∀ (s : State) (c : Byte) (p q : XY), encode (.rect c (.ok (p, q))) = [mkHeader 0x21 c 2, p.word, q.word]
    ∧ ∃ t, exec (.rect c (.ok (p, q))) s = .next t
    ∧ DrewPoints s t c (fun x y => (min p.a.toInt q.a.toInt ≤ x ∧ x ≤ max p.a.toInt q.a.toInt
        ∧ min p.b.toInt q.b.toInt ≤ y ∧ y ≤ max p.b.toInt q.b.toInt)
        ∧ (x = p.a.toInt ∨ x = q.a.toInt ∨ y = p.b.toInt ∨ y = q.b.toInt))

/-- R93: CIRCF draws every point with squared distance at most `radius^2`, none for a negative radius; reserved bits in
the `RAD` word are ERR_ILLEGAL. The packet has the form the opcode map gives it. -/
def Obligations.CircfDrawsTheDisk : Prop :=
  ∀ (s : State) (c : Byte) (p : XY) (r : RAD),
    encode (.circf c (.ok (p, r))) = [mkHeader 0x24 c 2, p.word, r.word] ∧
    (r.reserved = 0 → ∃ t, exec (.circf c (.ok (p, r))) s = .next t
      ∧ DrewPoints s t c (fun x y => 0 ≤ r.r.toInt
          ∧ (x - p.a.toInt) * (x - p.a.toInt) + (y - p.b.toInt) * (y - p.b.toInt) ≤ r.r.toInt * r.r.toInt))
    ∧ (r.reserved ≠ 0 → ∃ t, exec (.circf c (.ok (p, r))) s = .next t
      ∧ FaultEntered s t .illegal (Instr.circf c (.ok (p, r))).header)

/-- R94: CIRC draws every point with squared distance from `(radius-1)^2` to `radius^2`, none for a negative radius;
reserved bits in the `RAD` word are ERR_ILLEGAL. The packet has the form the opcode map gives it. -/
def Obligations.CircDrawsTheAnnulus : Prop :=
  ∀ (s : State) (c : Byte) (p : XY) (r : RAD),
    encode (.circ c (.ok (p, r))) = [mkHeader 0x23 c 2, p.word, r.word] ∧
    (r.reserved = 0 → ∃ t, exec (.circ c (.ok (p, r))) s = .next t
      ∧ DrewPoints s t c (fun x y => 0 ≤ r.r.toInt
          ∧ (r.r.toInt - 1) * (r.r.toInt - 1)
              ≤ (x - p.a.toInt) * (x - p.a.toInt) + (y - p.b.toInt) * (y - p.b.toInt)
          ∧ (x - p.a.toInt) * (x - p.a.toInt) + (y - p.b.toInt) * (y - p.b.toInt) ≤ r.r.toInt * r.r.toInt))
    ∧ (r.reserved ≠ 0 → ∃ t, exec (.circ c (.ok (p, r))) s = .next t
      ∧ FaultEntered s t .illegal (Instr.circ c (.ok (p, r))).header)

/-- R95: LINE draws the points its loop visits: there are a sequence of points and the error term before each of them
that start at `(x1,y1)` with the quoted initial term, step by the two tests on the saved term, and stop exactly at
`(x2,y2)` after `max(dx,dy) + 1` points. The packet has the form the opcode map gives it. -/
def Obligations.LineDrawsThePathOfTheErrorTerm : Prop :=
  ∀ (s : State) (c : Byte) (p q : XY) (dx dy sx sy : Int),
    dx = ((q.a.toInt - p.a.toInt).natAbs : Int) → dy = ((q.b.toInt - p.b.toInt).natAbs : Int) →
    sx = (if p.a.toInt < q.a.toInt then 1 else -1) → sy = (if p.b.toInt < q.b.toInt then 1 else -1) →
      encode (.line c (.ok (p, q))) = [mkHeader 0x25 c 2, p.word, q.word]
      ∧ ∃ (t : State) (path : List (Int × Int)) (err : Nat → Int), exec (.line c (.ok (p, q))) s = .next t
        ∧ DrewPoints s t c (fun x y => (x, y) ∈ path)
        ∧ path.length = (max dx dy).toNat + 1
        ∧ path[0]? = some (p.a.toInt, p.b.toInt)
        ∧ err 0 = (if dy < dx then dx else -dy).tdiv 2
        ∧ ∀ (k : Nat) (x y : Int), path[k]? = some (x, y) →
            ((x = q.a.toInt ∧ y = q.b.toInt) → path[k + 1]? = none)
            ∧ (¬ (x = q.a.toInt ∧ y = q.b.toInt) →
                path[k + 1]? = some (if -dx < err k then x + sx else x, if err k < dy then y + sy else y)
                ∧ err (k + 1) = err k - (if -dx < err k then dy else 0) + (if err k < dy then dx else 0))

/-- R95: the loop of LINE visits exactly `max(dx,dy) + 1` points, from the first end point to the second, each step one
unit toward the end in the major axis and at most one unit toward it in the other. -/
def Obligations.LinePathReachesItsEnd : Prop :=
  ∀ x1 y1 x2 y2 : Int,
    (linePoints x1 y1 x2 y2).length = max (x2 - x1).natAbs (y2 - y1).natAbs + 1
    ∧ (linePoints x1 y1 x2 y2)[0]? = some (x1, y1)
    ∧ (linePoints x1 y1 x2 y2)[max (x2 - x1).natAbs (y2 - y1).natAbs]? = some (x2, y2)
    ∧ ∀ (k : Nat) (p q : Int × Int), (linePoints x1 y1 x2 y2)[k]? = some p →
        (linePoints x1 y1 x2 y2)[k + 1]? = some q →
          (q.1 = p.1 ∨ q.1 = p.1 + (x2 - x1).sign) ∧ (q.2 = p.2 ∨ q.2 = p.2 + (y2 - y1).sign)
          ∧ ((y2 - y1).natAbs ≤ (x2 - x1).natAbs → q.1 = p.1 + (x2 - x1).sign)
          ∧ ((x2 - x1).natAbs ≤ (y2 - y1).natAbs → q.2 = p.2 + (y2 - y1).sign)

/-! ### Font and sprites -/

/-- R100: GLYPHGET responds the glyph's eight rows, row 0 in the lowest byte; a code above 127 is ERR_GLYPH. The packet
has the form the opcode map gives it. -/
def Obligations.GlyphgetRespondsTheRows : Prop :=
  ∀ (s : State) (code : Byte),
    encode (.glyphget code (.ok ())) = [mkHeader 0x30 code 0] ∧
    (code.toNat ≤ 127 → ∃ t g w0 w1, exec (.glyphget code (.ok ())) s = .next t ∧ OnlyAnswered s t [w0, w1]
      ∧ s.glyph[code.toNat]? = some g ∧ wordBytes w0 ++ wordBytes w1 = g.toList)
    ∧ (127 < code.toNat → ∃ t, exec (.glyphget code (.ok ())) s = .next t
      ∧ FaultEntered s t .glyph (Instr.glyphget code (.ok ())).header)

/-- R101: GLYPHSET replaces one glyph by eight bytes; a code above 127 is ERR_GLYPH, then another length ERR_LENGTH. The
packet has the form the opcode map gives it. -/
def Obligations.GlyphsetReplacesOneGlyph : Prop :=
  ∀ (s : State) (code : Byte) (bs : List Byte),
    encode (.glyphset code (.ok bs)) = mkHeader 0x31 code (BitVec.ofNat 16 (1 + (bs.length + 3) / 4))
      :: BitVec.ofNat 32 bs.length :: packBytes bs ∧
    (code.toNat ≤ 127 → bs.length = 8 → ∃ t g, exec (.glyphset code (.ok bs)) s = .next t
      ∧ t.glyph[code.toNat]? = some g ∧ g.toList = bs
      ∧ (∀ k, k ≠ code.toNat → t.glyph[k]? = s.glyph[k]?)
      ∧ Answered s t [] ∧ SameCells s t ∧ { t with glyph := s.glyph, rspPort := s.rspPort } = s)
    ∧ (127 < code.toNat → ∃ t, exec (.glyphset code (.ok bs)) s = .next t
      ∧ FaultEntered s t .glyph (Instr.glyphset code (.ok bs)).header)
    ∧ (code.toNat ≤ 127 → bs.length ≠ 8 → ∃ t, exec (.glyphset code (.ok bs)) s = .next t
      ∧ FaultEntered s t .length (Instr.glyphset code (.ok bs)).header)

/-- R102: PRINT draws the set bits of each byte's glyph, bit 0 leftmost, 8 columns per byte. The packet has the form the
opcode map gives it. -/
def Obligations.PrintDrawsTheSetBits : Prop :=
  ∀ (s : State) (c : Byte) (p : XY) (text : List Byte),
    encode (.print c (.ok (p, text))) = mkHeader 0x32 c (BitVec.ofNat 16 (2 + (text.length + 3) / 4))
      :: p.word :: BitVec.ofNat 32 text.length :: packBytes text ∧
    ∃ t, exec (.print c (.ok (p, text))) s = .next t
      ∧ DrewPoints s t c (fun x y => ∃ (k r i : Nat) (b row : Byte) (g : Glyph), text[k]? = some b ∧ r < 8 ∧ i < 8
          ∧ s.glyph[b.toNat % 128]? = some g ∧ g[r]? = some row ∧ row.getLsbD i = true
          ∧ x = p.a.toInt + 8 * k + i ∧ y = p.b.toInt + r)

/-- R103, R18: the digits 1 to 9 and the letters A to F, a to f decode to 1 to 15, other bytes below 128 to 0, and bytes
from 128 up as SPRITE_HI says. -/
def Obligations.SpriteBytesDecodeToColours : Prop :=
  ∀ (p : Params) (k : Nat),
    (1 ≤ k → k ≤ 9 → spriteColor p (BitVec.ofNat 8 (0x30 + k)) = BitVec.ofNat 4 k)
    ∧ (10 ≤ k → k ≤ 15 → spriteColor p (BitVec.ofNat 8 (0x41 + (k - 10))) = BitVec.ofNat 4 k
        ∧ spriteColor p (BitVec.ofNat 8 (0x61 + (k - 10))) = BitVec.ofNat 4 k)
    ∧ (k < 128 → ¬ (0x31 ≤ k ∧ k ≤ 0x39) → ¬ (0x41 ≤ k ∧ k ≤ 0x46) → ¬ (0x61 ≤ k ∧ k ≤ 0x66) →
        spriteColor p (BitVec.ofNat 8 k) = 0)
    ∧ (k < 128 → spriteColor p (BitVec.ofNat 8 (128 + k))
        = if p.spriteHi = .mask7 then spriteColor p (BitVec.ofNat 8 k) else 0)

/-- R104: SPRITE draws each decoded colour that differs from the transparent value, row by row; a length other than `w*h`
is ERR_LENGTH. The packet has the form the opcode map gives it. -/
def Obligations.SpriteDrawsOpaquePixels : Prop :=
  ∀ (s : State) (tr : Byte) (p : XY) (z : WH) (data : List Byte),
    encode (.sprite tr (.ok (p, z, data))) = mkHeader 0x33 tr (BitVec.ofNat 16 (3 + (data.length + 3) / 4))
      :: p.word :: z.word :: BitVec.ofNat 32 data.length :: packBytes data ∧
    (data.length = z.w.toNat * z.h.toNat → ∃ t, exec (.sprite tr (.ok (p, z, data))) s = .next t
      ∧ (∀ i j a, i < z.w.toNat → j < z.h.toNat → spriteByte s.params z.w.toNat data i j ≠ tr →
          s.landing (p.a.toInt + i) (p.b.toInt + j) = some a → t.cell a = spriteByte s.params z.w.toNat data i j)
      ∧ (∀ a, (∀ i j : Nat, i < z.w.toNat → j < z.h.toNat → spriteByte s.params z.w.toNat data i j ≠ tr →
          s.landing (p.a.toInt + i) (p.b.toInt + j) ≠ some a) → t.cell a = s.cell a)
      ∧ Answered s t [] ∧ { t with fb := s.fb, rspPort := s.rspPort } = s)
    ∧ (data.length ≠ z.w.toNat * z.h.toNat → ∃ t, exec (.sprite tr (.ok (p, z, data))) s = .next t
      ∧ FaultEntered s t .length (Instr.sprite tr (.ok (p, z, data))).header)

/-! ### Palette and presenter -/

/-- R135: COLORGET responds the three components; a slot above 15 is ERR_SLOT. The packet has the form the opcode map
gives it. -/
def Obligations.ColorgetRespondsTheEntry : Prop :=
  ∀ (s : State) (slot : Byte),
    encode (.colorget slot (.ok ())) = [mkHeader 0x40 slot 0] ∧
    (slot.toNat ≤ 15 → ∃ t e r g b, exec (.colorget slot (.ok ())) s = .next t ∧ OnlyAnswered s t [r, g, b]
      ∧ s.pal[slot.toNat]? = some e ∧ r.toNat = e.r.toNat ∧ g.toNat = e.g.toNat ∧ b.toNat = e.b.toNat)
    ∧ (15 < slot.toNat → ∃ t, exec (.colorget slot (.ok ())) s = .next t
      ∧ FaultEntered s t .slot (Instr.colorget slot (.ok ())).header)

/-- R136: COLORSET stores the components modulo 256 in one entry; a slot above 15 is ERR_SLOT. The packet has the form
the opcode map gives it. -/
def Obligations.ColorsetStoresTruncatedComponents : Prop :=
  ∀ (s : State) (slot : Byte) (r g b : Word),
    encode (.colorset slot (.ok (r, g, b))) = [mkHeader 0x41 slot 3, r, g, b] ∧
    (slot.toNat ≤ 15 → ∃ t e, exec (.colorset slot (.ok (r, g, b))) s = .next t
      ∧ t.pal[slot.toNat]? = some e
      ∧ (e.r.toNat : Int) = r.toInt % 256 ∧ (e.g.toNat : Int) = g.toInt % 256 ∧ (e.b.toNat : Int) = b.toInt % 256
      ∧ (∀ k, k ≠ slot.toNat → t.pal[k]? = s.pal[k]?)
      ∧ Answered s t [] ∧ SameCells s t ∧ { t with pal := s.pal, rspPort := s.rspPort } = s)
    ∧ (15 < slot.toNat → ∃ t, exec (.colorset slot (.ok (r, g, b))) s = .next t
      ∧ FaultEntered s t .slot (Instr.colorset slot (.ok (r, g, b))).header)

/-- R151, R137: in PRESENT the block emits one FRAME, the palette entries of all cells in row-major order, changes no
other state and waits for DISPLAY. -/
def Obligations.PresentEmitsTheFrame : Prop :=
  ∀ s u : State, BlockActs s u → s.phase = .present →
    ∃ t px, step s = .next t ∧ t.phase = .vsync ∧ t.dispPort = s.dispPort ++ [.frame px]
      ∧ px.length = s.w.toNat * s.h.toNat
      ∧ (∀ a, a < s.w.toNat * s.h.toNat → ∃ v e, px[a]? = some v ∧ s.pal[(s.cell a).toNat % 16]? = some e
          ∧ v.toNat = e.r.toNat * 65536 + e.g.toNat * 256 + e.b.toNat)
      ∧ SameCells s t ∧ { t with phase := s.phase, dispPort := s.dispPort } = u

/-! ### Input -/

/-- R110 to R113: the four queries respond the masks, the position minus the offset, and the text, and change nothing.
For a text of 2^32 bytes or more the length word is left free (log 12) and nothing is stated of it. The packet has the
form the opcode map gives it. -/
def Obligations.InputQueriesRespond : Prop :=
  ∀ s : State,
    encode (.btn (.ok ())) = [mkHeader 0x50 0 0] ∧ encode (.btnp (.ok ())) = [mkHeader 0x51 0 0]
    ∧ encode (.mouse (.ok ())) = [mkHeader 0x52 0 0] ∧ encode (.textget (.ok ())) = [mkHeader 0x53 0 0] ∧
    (∃ t v, exec (.btn (.ok ())) s = .next t ∧ OnlyAnswered s t [v] ∧ v.toNat = s.down.toNat)
    ∧ (∃ t v, exec (.btnp (.ok ())) s = .next t ∧ OnlyAnswered s t [v] ∧ v.toNat = s.pressed.toNat)
    ∧ (∃ t x y, exec (.mouse (.ok ())) s = .next t ∧ OnlyAnswered s t [x, y]
        ∧ x.toInt = s.mx.toInt - s.dx.toInt ∧ y.toInt = s.my.toInt - s.dy.toInt)
    ∧ (∃ t n ds, exec (.textget (.ok ())) s = .next t ∧ OnlyAnswered s t (n :: ds)
        ∧ (s.text.length < 2 ^ 32 → n.toNat = s.text.length)
        ∧ ds.length = (s.text.length + 3) / 4
        ∧ (ds.flatMap wordBytes).take s.text.length = s.text
        ∧ ∀ b ∈ (ds.flatMap wordBytes).drop s.text.length, b = 0)

/-- R68: the low byte of an event record's first word selects the kind, the other 24 bits are its argument, and the
second word its data; a kind the table does not list is no event of the table. -/
def Obligations.EventRecordsAreReadByKind : Prop :=
  ∀ (e : EventRec) (kind arg : Nat), kind = e.e0.toNat % 256 → arg = e.e0.toNat / 256 →
    (kind = 1 → ∃ src, e.decode = .btnDown src ∧ src.toNat = arg)
    ∧ (kind = 2 → ∃ src, e.decode = .btnUp src ∧ src.toNat = arg)
    ∧ (kind = 3 → ∃ mx my, e.decode = .mouseMove mx my
        ∧ mx.toNat = e.e1.toNat % 65536 ∧ my.toNat = e.e1.toNat / 65536)
    ∧ (kind = 4 → ∃ b, e.decode = .text b ∧ b.toNat = arg % 256)
    ∧ (kind = 5 → e.decode = .close)
    ∧ (kind = 6 → e.decode = .devAdded e.e1)
    ∧ (kind = 7 → e.decode = .devRemoved e.e1)
    ∧ (kind = 0 ∨ 8 ≤ kind → ∃ k, e.decode = .other k ∧ k.toNat = kind)

/-- R114: BTN_DOWN sets the mapped button's `DOWN` bit, and its `PRESSED` bit if the `DOWN` bit was clear; an unmapped
source changes nothing. The bits of the ten buttons are numbered in the order 10_state.md lists their names, A to SELECT. -/
def Obligations.ButtonDownLatchesTheTransition : Prop :=
  (buttonIndex .a = 0 ∧ buttonIndex .b = 1 ∧ buttonIndex .x = 2 ∧ buttonIndex .y = 3 ∧ buttonIndex .up = 4
    ∧ buttonIndex .down = 5 ∧ buttonIndex .left = 6 ∧ buttonIndex .right = 7 ∧ buttonIndex .start = 8
    ∧ buttonIndex .select = 9)
  ∧ ∀ (s : State) (src : BitVec 24),
    (buttonMap s.params src = none → applyEvent s (.btnDown src) = s)
    ∧ ∀ n, buttonMap s.params src = some n →
      (∀ k, (applyEvent s (.btnDown src)).down.getLsbD k = (s.down.getLsbD k || decide (k = buttonIndex n)))
      ∧ (∀ k, (applyEvent s (.btnDown src)).pressed.getLsbD k
          = (s.pressed.getLsbD k || decide (k = buttonIndex n ∧ s.down.getLsbD (buttonIndex n) = false)))
      ∧ { applyEvent s (.btnDown src) with down := s.down, pressed := s.pressed } = s

/-- R115 to R118, R120: a release clears the mapped button's `DOWN` bit and nothing else, pointer motion overwrites the
position, a text byte is appended unless the buffer is full, a close request sets `QUIT`, and any other kind changes
nothing. -/
def Obligations.OtherEventsAct : Prop :=
  ∀ s : State,
    (∀ src, buttonMap s.params src = none → applyEvent s (.btnUp src) = s)
    ∧ (∀ src n, buttonMap s.params src = some n →
        (∀ k, (applyEvent s (.btnUp src)).down.getLsbD k = (s.down.getLsbD k && decide (k ≠ buttonIndex n)))
        ∧ { applyEvent s (.btnUp src) with down := s.down } = s)
    ∧ (∀ mx my, applyEvent s (.mouseMove mx my) = { s with mx := mx, my := my })
    ∧ (∀ b, s.text.length < s.params.textCap → applyEvent s (.text b) = { s with text := s.text ++ [b] })
    ∧ (∀ b, s.params.textCap ≤ s.text.length → applyEvent s (.text b) = s)
    ∧ applyEvent s .close = { s with quit := true }
    ∧ ∀ k, applyEvent s (.other k) = s

/-- R119: a rescan makes `OPEN` the union of itself and the devices PLATFORM reports; repeating it changes nothing.
That the reported set is a field of the state (log 8), and that `OPEN` is a strictly rising list (log 10), are the
model's choice. -/
def Obligations.RescanIsAnIdempotentUnion : Prop :=
  ∀ (s : State) (id : Word), risingIds s.opened = true →
    (∀ v, v ∈ (applyEvent s (.devAdded id)).opened ↔ v ∈ s.opened ∨ v ∈ s.devices)
    ∧ risingIds (applyEvent s (.devAdded id)).opened = true
    ∧ applyEvent (applyEvent s (.devAdded id)) (.devAdded id) = applyEvent s (.devAdded id)
    ∧ applyEvent s (.devRemoved id) = applyEvent s (.devAdded id)
    ∧ { applyEvent s (.devAdded id) with opened := s.opened } = s

/-- R147: DRAIN empties the queue and applies its events, oldest first, then the phase is TIME: the first event is
applied before the others, and an empty queue only moves the phase. -/
def Obligations.DrainAppliesEventsInOrder : Prop :=
  ∀ s u : State, BlockActs s u → s.phase = .drain →
    (s.evq = [] → step s = .next { u with phase := .time })
    ∧ (∀ e q, s.evq = e :: q → step s = step { applyEvent { s with evq := [] } e.decode with evq := q })
    ∧ ∃ t, step s = .next t ∧ t.phase = .time ∧ t.evq = []

/-- R114, R115, R187: a press and release of a released button drained in one tick leave `PRESSED` set and `DOWN` clear. -/
def Obligations.PressAndReleaseInOneDrain : Prop :=
  ∀ (s : State) (e f : EventRec) (src : BitVec 24) (n : Button), (∃ u, BlockActs s u) → s.phase = .drain →
    s.evq = [e, f] → e.decode = .btnDown src → f.decode = .btnUp src → buttonMap s.params src = some n →
    s.down.getLsbD (buttonIndex n) = false →
      ∃ t, step s = .next t ∧ t.pressed.getLsbD (buttonIndex n) = true ∧ t.down.getLsbD (buttonIndex n) = false
        ∧ t.evq = []

/-! ### Generator -/

/-- R125, R22: the advance is the three shift-and-xor steps on the word, a zero word replaced first, and never leaves 0. -/
def Obligations.AdvanceIsXorshiftAndNeverZero : Prop :=
  ∀ (s : State) (s0 s1 s2 s3 : Word),
    s0 = (if s.seed = 0 then s.params.rngFix else s.seed) → s1 = s0 ^^^ (s0 <<< 13) → s2 = s1 ^^^ (s1 >>> 17)
      → s3 = s2 ^^^ (s2 <<< 5) → s.params.rngFix ≠ 0 →
        s.advance = { s with seed := s3 } ∧ s3 ≠ 0

/-- R126: RANDU advances once and responds `SEED / 2^32` exactly, as a normal binary64 below 1 (sign 0, exponent field
`E`, fraction `F`). The packet has the form the opcode map gives it. -/
def Obligations.RanduRespondsTheExactQuotient : Prop :=
  ∀ s : State, s.params.rngFix ≠ 0 →
    encode (.randu (.ok ())) = [mkHeader 0x60 0 0] ∧
    ∃ t lo hi, exec (.randu (.ok ())) s = .next t ∧ Answered s t [lo, hi] ∧ t.seed = s.advance.seed
      ∧ 1 ≤ hi.toNat / 2 ^ 20 ∧ hi.toNat / 2 ^ 20 ≤ 1022
      ∧ (2 ^ 52 + (hi.toNat % 2 ^ 20 * 2 ^ 32 + lo.toNat)) * 2 ^ (hi.toNat / 2 ^ 20) = t.seed.toNat * 2 ^ 1043
      ∧ SameCells s t ∧ { t with seed := s.seed, rspPort := s.rspPort } = s

/-- R126, R128, R148: the binary64 rounding `m * 2^(e - 52)` of `n / d` is to nearest, ties to even: `2^e` is the
greatest power of two not above the quotient (in the subnormal range `e` is -1022), the significand is off by at most
half a unit, and is even at exactly half. `floorRN` is the floor of that value, and `binary64` its bit pattern, with
exponent field `E` and fraction `F`, for every divisor. A zero quotient gives zero. -/
def Obligations.RoundingIsToNearestEven : Prop :=
  (∀ d : Nat, floorRN 0 d = 0 ∧ binary64 0 d = 0)
  ∧ ∀ (n d m a b : Nat) (e : Int), 0 < n → 0 < d → nearest64 n d = (m, e) →
    a = n * 2 ^ (52 - e).toNat → b = d * 2 ^ (e - 52).toNat →
      (-1022 ≤ e ∧ m ≤ 2 ^ 53)
      ∧ 2 * ((a : Int) - (m : Int) * (b : Int)).natAbs ≤ b
      ∧ (2 * ((a : Int) - (m : Int) * (b : Int)).natAbs = b → m % 2 = 0)
      ∧ n * 2 ^ (-(e + 1)).toNat < d * 2 ^ (e + 1).toNat
      ∧ (d ≤ n * 2 ^ 1022 → 2 ^ 52 ≤ m ∧ d * 2 ^ e.toNat ≤ n * 2 ^ (-e).toNat)
      ∧ (n * 2 ^ 1022 < d → e = -1022)
      ∧ (floorRN n d * 2 ^ (52 - e).toNat ≤ m * 2 ^ (e - 52).toNat
        ∧ m * 2 ^ (e - 52).toNat < (floorRN n d + 1) * 2 ^ (52 - e).toNat)
      ∧ (n < d * 2 ^ 1023 → ∃ E F : Nat, (binary64 n d).toNat = E * 2 ^ 52 + F ∧ E < 2047 ∧ F < 2 ^ 52
        ∧ m * 2 ^ (e + 1022).toNat = if E = 0 then F else (2 ^ 52 + F) * 2 ^ (E - 1))

/-- R127: RANDN responds `floor(RN(u * n)) + 1`, from 1 to `n`, after one advance; `n < 1` is ERR_RANGE_EMPTY. The packet
has the form the opcode map gives it. -/
def Obligations.RandnDrawsFromOneToN : Prop :=
  ∀ (s : State) (n : Word),
    encode (.randn (.ok n)) = [mkHeader 0x61 0 1, n] ∧
    (1 ≤ n.toInt → ∃ t v, exec (.randn (.ok n)) s = .next t ∧ Answered s t [v] ∧ t.seed = s.advance.seed
      ∧ v.toInt = (floorRN (t.seed.toNat * n.toInt.toNat) (2 ^ 32) : Int) + 1
      ∧ 1 ≤ v.toInt ∧ v.toInt ≤ n.toInt
      ∧ SameCells s t ∧ { t with seed := s.seed, rspPort := s.rspPort } = s)
    ∧ (n.toInt < 1 → ∃ t, exec (.randn (.ok n)) s = .next t
      ∧ FaultEntered s t .rangeEmpty (Instr.randn (.ok n)).header)

/-- R128: RANDR responds `floor(RN(u * width)) + lo`, from `lo` to `hi`, after one advance; `lo > hi` is ERR_RANGE_EMPTY,
then a width above `2^31 - 1` ERR_RANGE_OVERFLOW. The packet has the form the opcode map gives it. -/
def Obligations.RandrDrawsFromLoToHi : Prop :=
  ∀ (s : State) (lo hi : Word),
    encode (.randr (.ok (lo, hi))) = [mkHeader 0x62 0 2, lo, hi] ∧
    (lo.toInt ≤ hi.toInt → hi.toInt - lo.toInt + 1 ≤ 2 ^ 31 - 1 →
      ∃ t v, exec (.randr (.ok (lo, hi))) s = .next t ∧ Answered s t [v] ∧ t.seed = s.advance.seed
        ∧ v.toInt = (floorRN (t.seed.toNat * (hi.toInt - lo.toInt + 1).toNat) (2 ^ 32) : Int) + lo.toInt
        ∧ lo.toInt ≤ v.toInt ∧ v.toInt ≤ hi.toInt
        ∧ SameCells s t ∧ { t with seed := s.seed, rspPort := s.rspPort } = s)
    ∧ (hi.toInt < lo.toInt → ∃ t, exec (.randr (.ok (lo, hi))) s = .next t
        ∧ FaultEntered s t .rangeEmpty (Instr.randr (.ok (lo, hi))).header)
    ∧ (lo.toInt ≤ hi.toInt → 2 ^ 31 - 1 < hi.toInt - lo.toInt + 1 → ∃ t, exec (.randr (.ok (lo, hi))) s = .next t
        ∧ FaultEntered s t .rangeOverflow (Instr.randr (.ok (lo, hi))).header)

/-- R128: for a width up to `2^21` the rounding is exact and the draw is the integer expression `(SEED * width) >> 32`. -/
def Obligations.NarrowDrawsAreExact : Prop :=
  ∀ (seed : Word) (width : Nat), width ≤ 2 ^ 21 →
    floorRN (seed.toNat * width) (2 ^ 32) = seed.toNat * width / 2 ^ 32

/-- R129, R130: SEEDGET responds the stored word as it is; SEEDSET stores any word as it is. The packet has the form the
opcode map gives it. -/
def Obligations.SeedIsReadAndWrittenVerbatim : Prop :=
  ∀ (s : State) (v : Word),
    encode (.seedget (.ok ())) = [mkHeader 0x63 0 0] ∧ encode (.seedset (.ok v)) = [mkHeader 0x64 0 1, v] ∧
    (∃ t, exec (.seedget (.ok ())) s = .next t ∧ OnlyAnswered s t [s.seed])
    ∧ ∃ t, exec (.seedset (.ok v)) s = .next t ∧ t.seed = v ∧ Answered s t [] ∧ SameCells s t
        ∧ { t with seed := s.seed, rspPort := s.rspPort } = s

/-- R131: nothing but the draws and SEEDSET touches `SEED`: no other command, and no step of any agent but reset, unless
the command on the port is one of those and is admitted. -/
def Obligations.SeedChangesOnlyByDrawsAndSeedset : Prop :=
  (∀ (i : Instr) (s t : State), i.op ∉ [Op.randu, .randn, .randr, .seedset] → exec i s = .next t → t.seed = s.seed)
  ∧ ∀ s t : State, s.turns.head? ≠ some .reset → step s = .next t →
      ((s.phase = .setup ∨ s.phase = .callback) → ∀ i rest, decode s.cmdPort = .command i rest →
        i.op ∉ [Op.randu, .randn, .randr, .seedset]) →
      t.seed = s.seed

/-! ### Sequencer -/

/-- R144: RUN in SETUP loads `LASTT` from the time port and enters TOP; in another phase it is ERR_PHASE. The packet has
the form the opcode map gives it. -/
def Obligations.RunStartsTheLoop : Prop :=
  ∀ s : State,
    encode (.run (.ok ())) = [mkHeader 0x03 0 0] ∧
    (s.phase = .setup → ∃ t, exec (.run (.ok ())) s = .next t ∧ t.lastt = s.now ∧ t.phase = .top
      ∧ Answered s t [] ∧ SameCells s t ∧ { t with lastt := s.lastt, phase := s.phase, rspPort := s.rspPort } = s)
    ∧ (s.phase ≠ .setup → ∃ t, exec (.run (.ok ())) s = .next t
      ∧ FaultEntered s t .phase (Instr.run (.ok ())).header)

/-- R150: ENDFRAME in CALLBACK enters PRESENT; in another phase it is ERR_PHASE. The packet has the form the opcode map
gives it. -/
def Obligations.EndframeReturnsTheCallback : Prop :=
  ∀ s : State,
    encode (.endframe (.ok ())) = [mkHeader 0x04 0 0] ∧
    (s.phase = .callback → ∃ t, exec (.endframe (.ok ())) s = .next t ∧ t.phase = .present
      ∧ Answered s t [] ∧ SameCells s t ∧ { t with phase := s.phase, rspPort := s.rspPort } = s)
    ∧ (s.phase ≠ .callback → ∃ t, exec (.endframe (.ok ())) s = .next t
      ∧ FaultEntered s t .phase (Instr.endframe (.ok ())).header)

/-- R153, R154: QUIT sets the quit flag, CBREG the callback flag, and nothing else. The packet has the form the opcode
map gives it. -/
def Obligations.QuitAndCbregSetTheirFlags : Prop :=
  ∀ (s : State) (en : Bool),
    encode (.quit (.ok ())) = [mkHeader 0x05 0 0] ∧ encode (.cbreg en (.ok ())) = [mkHeader 0x06 (if en then 1 else 0) 0]
    ∧ (∀ (c8 : Byte) (nw : BitVec 16), 1 < c8.toNat → selectRow (mkHeader 0x06 c8 nw) = none) ∧
    (∃ t, exec (.quit (.ok ())) s = .next t ∧ t.quit = true ∧ Answered s t [] ∧ SameCells s t
      ∧ { t with quit := s.quit, rspPort := s.rspPort } = s)
    ∧ ∃ t, exec (.cbreg en (.ok ())) s = .next t ∧ t.cbEn = en ∧ Answered s t [] ∧ SameCells s t
      ∧ { t with cbEn := s.cbEn, rspPort := s.rspPort } = s

/-- R145, R146: TOP goes to HALTED exactly when `QUIT` is set, else to CLEARIN; CLEARIN clears the edge latch and the
text buffer and goes to DRAIN. -/
def Obligations.TopAndClearinStep : Prop :=
  ∀ s u : State, BlockActs s u →
    (s.phase = .top → s.quit = true → step s = .next { u with phase := .halted })
    ∧ (s.phase = .top → s.quit = false → step s = .next { u with phase := .clearin })
    ∧ (s.phase = .clearin → step s = .next { u with pressed := 0, text := [], phase := .drain })

/-- R148: TIME samples the clock, and sends FRAME_START with the elapsed seconds as binary64 and enters CALLBACK if a
callback is registered, else enters PRESENT; a clock below `LASTT` is refused (R169, U11). That dt is computed and
not drawn freely, and that the refusal stops the model, is the model's choice (log 7). -/
def Obligations.TimeMeasuresAndChoosesThePhase : Prop :=
  ∀ s u : State, BlockActs s u → s.phase = .time →
    (s.lastt.toNat ≤ s.now.toNat → s.cbEn = true → ∃ f : FrameStart,
      step s = .next { u with lastt := s.now, cbPort := s.cbPort ++ [f], phase := .callback }
      ∧ f.hi.toNat * 2 ^ 32 + f.lo.toNat = (binary64 (s.now.toNat - s.lastt.toNat) s.params.clkHz).toNat)
    ∧ (s.lastt.toNat ≤ s.now.toNat → s.cbEn = false → step s = .next { u with lastt := s.now, phase := .present })
    ∧ (s.now.toNat < s.lastt.toNat → step s = .refused .clockDecreased)

/-- R152: in VSYNC the block waits, and only DISPLAY's acknowledgement moves it, to TOP; in another phase the
acknowledgement changes nothing. That a waiting turn of the block leaves the state as it is, what an acknowledgement
does outside VSYNC, and the list of turns are the model's choice (logs 9, 17 and 1). -/
def Obligations.VsyncWaitsForTheDisplay : Prop :=
  (∀ (s : State) (ts : List Turn), s.phase ≠ .vsync → s.turns = .display :: ts → step s = .next { s with turns := ts })
  ∧ ∀ s : State, s.phase = .vsync →
    (∀ u, BlockActs s u → step s = .next u)
    ∧ (∀ ts, s.turns = .display :: ts → step s = .next { s with phase := .top, turns := ts })
    ∧ ∀ t, step s = .next t → s.turns.head? ≠ some .display → s.turns.head? ≠ some .reset → t.phase = .vsync

/-- R143, R184: outside SETUP and CALLBACK no step of any agent but reset takes a word from the command port, answers, or
changes a cell: HOST alone adds words, at the end. -/
def Obligations.PacketsAreHeldOutsideAdmission : Prop :=
  ∀ s t : State, s.turns.head? ≠ some .reset → s.phase ≠ .setup → s.phase ≠ .callback → step s = .next t →
    (∃ ws, t.cmdPort = s.cmdPort ++ ws ∧ (ws = [] ∨ s.turns.head? = some (.host ws)))
    ∧ t.rspPort = s.rspPort ∧ SameCells s t

/-- R142, R155, R157, R164: the block has no step exactly in HALTED and FAULTED, where the run is over, and no other
agent's turn ends in a fault of the machine. That the stuck block is a fault of the step is the model's choice (log 9). -/
def Obligations.RunIsOverExactlyWhenTheBlockStops : Prop :=
  ∀ s : State, (∃ f, step s = .fault f) ↔ s.over ∧ ∃ u, BlockActs s u

/-- R156, R60, R119, R70: the other agents' turns, in every phase: an event is appended to the queue, HOST's words to the
command port as long as it holds at most one packet, the reported devices and the clock are replaced; a second packet
(R183, U6) and a decreasing clock (U11) are refused; nothing else changes. The list of turns, the waiting words, the
clock and the device set as fields of the state, and that these turns go on in HALTED and FAULTED, are the model's
choice (logs 1, 5, 7, 8, 9). -/
def Obligations.OtherAgentsTouchOnlyTheirInputs : Prop :=
  ∀ (s : State) (ts : List Turn),
    (∀ e, s.turns = .platform e :: ts → step s = .next { s with evq := s.evq ++ [e], turns := ts })
    ∧ (∀ ws, s.turns = .host ws :: ts → atMostOnePacket (s.cmdPort ++ ws) = true →
        step s = .next { s with cmdPort := s.cmdPort ++ ws, turns := ts })
    ∧ (∀ ws, s.turns = .host ws :: ts → atMostOnePacket (s.cmdPort ++ ws) = false → step s = .refused .secondPacket)
    ∧ (∀ h ws, atMostOnePacket (h :: ws) = true ↔ ws.length ≤ (nwField h).toNat)
    ∧ (∀ ids, s.turns = .hotplug ids :: ts → step s = .next { s with devices := ids, turns := ts })
    ∧ (∀ c, s.turns = .clock c :: ts → s.now.toNat ≤ c.toNat → step s = .next { s with now := c, turns := ts })
    ∧ (∀ c, s.turns = .clock c :: ts → c.toNat < s.now.toNat → step s = .refused .clockDecreased)

/-- R180, R181: a reset in any phase gives every element the value of R29's table and announces the mode. Its unspecified
elements (cells, ASPECT, ERRCMD, LASTT) are free values, of which nothing is stated; that the ports' records, the
held words and the parameters stay is the model's choice (log 14). -/
def Obligations.ResetRestoresTheTable : Prop :=
  ∀ (s : State) (ts : List Turn), s.turns = .reset :: ts →
    ∃ t, step s = .next t ∧ t.phase = .setup ∧ t.w = s.params.initW ∧ t.h = s.params.initH ∧ t.fb = []
      ∧ t.xl = 0 ∧ t.yl = 0 ∧ t.xh = s.params.initW ∧ t.yh = s.params.initH ∧ t.dx = 0 ∧ t.dy = 0
      ∧ t.aspectEn = false ∧ t.pal = s.params.palInit ∧ t.glyph = s.params.fontInit ∧ t.down = 0 ∧ t.pressed = 0
      ∧ t.mx = 0 ∧ t.my = 0 ∧ t.text = [] ∧ t.seed = 0 ∧ t.quit = false ∧ t.cbEn = false ∧ t.err = 0
      ∧ t.evq = [] ∧ t.opened = []
      ∧ t.dispPort = s.dispPort ++ [.mode s.params.initW s.params.initH false t.aspect]
      ∧ t.params = s.params ∧ t.rspPort = s.rspPort ∧ t.cbPort = s.cbPort ∧ t.cmdPort = s.cmdPort ∧ t.turns = ts

/-! ### Rules about the whole machine -/

/-- R12 to R14, R21, R24, R27, R183: the invariant holds after reset. The parameters are those of log 2. -/
def Obligations.ResetMeetsTheInvariant : Prop := State.reset.Inv

/-- R12 to R14, R21, R24, R27, R183: every step of every agent keeps the invariant. The canonical memory, the rising list
of ids and the words on the port are the model's forms of these (logs 3, 10, 5). -/
def Obligations.EveryStepKeepsTheInvariant : Prop := ∀ s t : State, s.Inv → step s = .next t → t.Inv

/-- R161: the commands of R161's list, RUN and ENDFRAME apart, never fault once decoded, on any operand: each answers OK,
and the phase and the fault record stay. -/
def Obligations.DecodedDrawingNeverFaults : Prop :=
  ∀ (i : Instr) (s : State), neverFaults i.op = true → i.wf = true →
    ∃ t vs, exec i s = .next t ∧ Answered s t vs ∧ t.phase = s.phase ∧ t.err = s.err ∧ t.errcmd = s.errcmd

/-- R187, R121: `DOWN` and the mouse position change only in DRAIN, `PRESSED` and the text buffer only in DRAIN and
CLEARIN (log 21), reset apart. -/
def Obligations.InputChangesOnlyInItsSteps : Prop :=
  ∀ s t : State, step s = .next t → s.turns.head? ≠ some .reset →
    (s.phase ≠ .drain → t.down = s.down ∧ t.mx = s.mx ∧ t.my = s.my ∧ t.opened = s.opened)
    ∧ (s.phase ≠ .drain → s.phase ≠ .clearin → t.pressed = s.pressed ∧ t.text = s.text)

/-- R23, R24, R164, R4: only reset clears `QUIT` or leaves FAULTED; in FAULTED the fault record never changes; the
parameters never change at all. -/
def Obligations.OnlyResetUndoesQuitAndFault : Prop :=
  ∀ s t : State, step s = .next t →
    t.params = s.params
    ∧ (s.turns.head? ≠ some .reset → s.quit = true → t.quit = true)
    ∧ (s.turns.head? ≠ some .reset → s.phase = .faulted → t.phase = .faulted ∧ t.err = s.err ∧ t.errcmd = s.errcmd)
end

