-- ==== Sys2Proof/Laws/Decode.lean ====
section
/-! SUPPORT. What the pieces of the decoder read from what the encoder writes. -/

namespace Sys2Proof

@[simp] theorem opField_mkHeader (op c8 : Byte) (nw : BitVec 16) : opField (mkHeader op c8 nw) = op := by
  apply BitVec.eq_of_getLsbD_eq
  intro i hi
  simp [opField, mkHeader, hi, show i < 32 by omega, show i < 16 by omega]

@[simp] theorem c8Field_mkHeader (op c8 : Byte) (nw : BitVec 16) : c8Field (mkHeader op c8 nw) = c8 := by
  apply BitVec.eq_of_getLsbD_eq
  intro i hi
  simp [c8Field, mkHeader, hi, show 8 + i < 32 by omega, show 8 + i < 16 by omega]

@[simp] theorem nwField_mkHeader (op c8 : Byte) (nw : BitVec 16) : nwField (mkHeader op c8 nw) = nw := by
  apply BitVec.eq_of_getLsbD_eq
  intro i hi
  simp [nwField, mkHeader, hi, show 16 + i < 32 by omega, show ¬ 16 + i < 8 by omega, show 16 + i - 8 = 8 + i by omega,
    BitVec.getLsbD_of_ge op (16 + i) (by omega)]

@[simp] theorem lowHalf_joinHalves (lo hi : BitVec 16) : lowHalf (joinHalves lo hi) = lo := by
  apply BitVec.eq_of_getLsbD_eq
  intro i h
  simp [lowHalf, joinHalves, h, show i < 32 by omega]

@[simp] theorem highHalf_joinHalves (lo hi : BitVec 16) : highHalf (joinHalves lo hi) = hi := by
  apply BitVec.eq_of_getLsbD_eq
  intro i h
  simp [highHalf, joinHalves, h, show 16 + i < 32 by omega]

@[simp] theorem xyOf_word (p : XY) : xyOf p.word = p := by simp [xyOf, XY.word]

@[simp] theorem whOf_word (p : WH) : whOf p.word = p := by simp [whOf, WH.word]

@[simp] theorem radOf_word (p : RAD) : radOf p.word = p := by simp [radOf, RAD.word]

@[simp] theorem wordBytes_mkDataWord (b0 b1 b2 b3 : Byte) : wordBytes (mkDataWord b0 b1 b2 b3) = [b0, b1, b2, b3] := by
  simp only [wordBytes, mkDataWord, List.cons.injEq, and_true]
  refine ⟨?_, ?_, ?_, ?_⟩ <;> apply BitVec.eq_of_getLsbD_eq <;> intro i hi
  · simp [hi, show i < 32 by omega, show i < 16 by omega, show i < 24 by omega]
  · simp [hi, show 8 + i < 32 by omega, show 8 + i < 16 by omega, show 8 + i < 24 by omega]
  · simp [hi, show 16 + i < 32 by omega, show 16 + i < 24 by omega, show ¬ 16 + i < 8 by omega,
      show 16 + i - 8 = 8 + i by omega, BitVec.getLsbD_of_ge b0 (16 + i) (by omega)]
  · simp [hi, show 24 + i < 32 by omega, show ¬ 24 + i < 8 by omega, show ¬ 24 + i < 16 by omega,
      show 24 + i - 8 = 16 + i by omega, show 24 + i - 16 = 8 + i by omega,
      BitVec.getLsbD_of_ge b0 (24 + i) (by omega), BitVec.getLsbD_of_ge b1 (16 + i) (by omega)]

/-- A payload has as many DATA words as R63 says. -/
theorem packBytes_length (bs : List Byte) : (packBytes bs).length = dataWords bs.length := by
  fun_induction packBytes bs <;> simp_all [dataWords]
  omega

/-- Unpacking a packed payload gives it back, whatever stands after its bytes (R63). -/
theorem take_flatMap_packBytes (bs : List Byte) :
    ((packBytes bs).flatMap wordBytes).take bs.length = bs := by
  fun_induction packBytes bs <;> simp_all

@[simp] theorem unpackBytes_packBytes (bs : List Byte) : unpackBytes bs.length (packBytes bs) = bs :=
  take_flatMap_packBytes bs

/-- The payload of a packed byte string that fits the length word. -/
theorem payload_packBytes (bs : List Byte) (h : bs.length < 2 ^ 32) :
    payload (BitVec.ofNat 32 bs.length) (packBytes bs) = some bs := by
  have e : (BitVec.ofNat 32 bs.length).toNat = bs.length := by
    rw [BitVec.toNat_ofNat, Nat.mod_eq_of_lt h]
  rw [payload, e, if_pos (packBytes_length bs), unpackBytes_packBytes]

/-- A row is selected by its own opcode and no reserved bit (R65). -/
theorem selectRow_mkHeader (o : Op) (c8 : Byte) (nw : BitVec 16) (h : c8 &&& o.reserved = 0) :
    selectRow (mkHeader o.code c8 nw) = some o := by
  simp only [selectRow, opField_mkHeader, c8Field_mkHeader]
  cases o <;> simp_all [Op.all, Op.code, Op.reserved, List.find?]

/-- What a selected row says of the header (R65). -/
theorem selectRow_some (h : Word) (o : Op) (e : selectRow h = some o) :
    opField h = o.code ∧ c8Field h &&& o.reserved = 0 := by
  have := List.find?_some e
  simpa using this

end Sys2Proof
end

