-- ==== Sys2Proof/Laws/State.lean ====
section
/-! SUPPORT. What each setter of Machine/Ops.lean leaves in each field of the state: the field it writes, and every
other field as it was. -/

namespace Sys2Proof.Machine

/-! ### setPhase -/

@[simp] theorem State.setPhase_params (s : State) (p : Phase) : (s.setPhase p).params = s.params := rfl
@[simp] theorem State.setPhase_phase (s : State) (p : Phase) : (s.setPhase p).phase = p := rfl
@[simp] theorem State.setPhase_w (s : State) (p : Phase) : (s.setPhase p).w = s.w := rfl
@[simp] theorem State.setPhase_h (s : State) (p : Phase) : (s.setPhase p).h = s.h := rfl
@[simp] theorem State.setPhase_fb (s : State) (p : Phase) : (s.setPhase p).fb = s.fb := rfl
@[simp] theorem State.setPhase_xl (s : State) (p : Phase) : (s.setPhase p).xl = s.xl := rfl
@[simp] theorem State.setPhase_yl (s : State) (p : Phase) : (s.setPhase p).yl = s.yl := rfl
@[simp] theorem State.setPhase_xh (s : State) (p : Phase) : (s.setPhase p).xh = s.xh := rfl
@[simp] theorem State.setPhase_yh (s : State) (p : Phase) : (s.setPhase p).yh = s.yh := rfl
@[simp] theorem State.setPhase_dx (s : State) (p : Phase) : (s.setPhase p).dx = s.dx := rfl
@[simp] theorem State.setPhase_dy (s : State) (p : Phase) : (s.setPhase p).dy = s.dy := rfl
@[simp] theorem State.setPhase_aspectEn (s : State) (p : Phase) : (s.setPhase p).aspectEn = s.aspectEn := rfl
@[simp] theorem State.setPhase_aspect (s : State) (p : Phase) : (s.setPhase p).aspect = s.aspect := rfl
@[simp] theorem State.setPhase_pal (s : State) (p : Phase) : (s.setPhase p).pal = s.pal := rfl
@[simp] theorem State.setPhase_glyph (s : State) (p : Phase) : (s.setPhase p).glyph = s.glyph := rfl
@[simp] theorem State.setPhase_down (s : State) (p : Phase) : (s.setPhase p).down = s.down := rfl
@[simp] theorem State.setPhase_pressed (s : State) (p : Phase) : (s.setPhase p).pressed = s.pressed := rfl
@[simp] theorem State.setPhase_mx (s : State) (p : Phase) : (s.setPhase p).mx = s.mx := rfl
@[simp] theorem State.setPhase_my (s : State) (p : Phase) : (s.setPhase p).my = s.my := rfl
@[simp] theorem State.setPhase_text (s : State) (p : Phase) : (s.setPhase p).text = s.text := rfl
@[simp] theorem State.setPhase_seed (s : State) (p : Phase) : (s.setPhase p).seed = s.seed := rfl
@[simp] theorem State.setPhase_quit (s : State) (p : Phase) : (s.setPhase p).quit = s.quit := rfl
@[simp] theorem State.setPhase_cbEn (s : State) (p : Phase) : (s.setPhase p).cbEn = s.cbEn := rfl
@[simp] theorem State.setPhase_err (s : State) (p : Phase) : (s.setPhase p).err = s.err := rfl
@[simp] theorem State.setPhase_errcmd (s : State) (p : Phase) : (s.setPhase p).errcmd = s.errcmd := rfl
@[simp] theorem State.setPhase_lastt (s : State) (p : Phase) : (s.setPhase p).lastt = s.lastt := rfl
@[simp] theorem State.setPhase_evq (s : State) (p : Phase) : (s.setPhase p).evq = s.evq := rfl
@[simp] theorem State.setPhase_opened (s : State) (p : Phase) : (s.setPhase p).opened = s.opened := rfl
@[simp] theorem State.setPhase_cmdPort (s : State) (p : Phase) : (s.setPhase p).cmdPort = s.cmdPort := rfl
@[simp] theorem State.setPhase_rspPort (s : State) (p : Phase) : (s.setPhase p).rspPort = s.rspPort := rfl
@[simp] theorem State.setPhase_dispPort (s : State) (p : Phase) : (s.setPhase p).dispPort = s.dispPort := rfl
@[simp] theorem State.setPhase_cbPort (s : State) (p : Phase) : (s.setPhase p).cbPort = s.cbPort := rfl
@[simp] theorem State.setPhase_now (s : State) (p : Phase) : (s.setPhase p).now = s.now := rfl
@[simp] theorem State.setPhase_devices (s : State) (p : Phase) : (s.setPhase p).devices = s.devices := rfl
@[simp] theorem State.setPhase_turns (s : State) (p : Phase) : (s.setPhase p).turns = s.turns := rfl
@[simp] theorem State.setPhase_draws (s : State) (p : Phase) : (s.setPhase p).draws = s.draws := rfl

/-! ### setFb -/

@[simp] theorem State.setFb_params (s : State) (m : Memory) : (s.setFb m).params = s.params := rfl
@[simp] theorem State.setFb_phase (s : State) (m : Memory) : (s.setFb m).phase = s.phase := rfl
@[simp] theorem State.setFb_w (s : State) (m : Memory) : (s.setFb m).w = s.w := rfl
@[simp] theorem State.setFb_h (s : State) (m : Memory) : (s.setFb m).h = s.h := rfl
@[simp] theorem State.setFb_fb (s : State) (m : Memory) : (s.setFb m).fb = m := rfl
@[simp] theorem State.setFb_xl (s : State) (m : Memory) : (s.setFb m).xl = s.xl := rfl
@[simp] theorem State.setFb_yl (s : State) (m : Memory) : (s.setFb m).yl = s.yl := rfl
@[simp] theorem State.setFb_xh (s : State) (m : Memory) : (s.setFb m).xh = s.xh := rfl
@[simp] theorem State.setFb_yh (s : State) (m : Memory) : (s.setFb m).yh = s.yh := rfl
@[simp] theorem State.setFb_dx (s : State) (m : Memory) : (s.setFb m).dx = s.dx := rfl
@[simp] theorem State.setFb_dy (s : State) (m : Memory) : (s.setFb m).dy = s.dy := rfl
@[simp] theorem State.setFb_aspectEn (s : State) (m : Memory) : (s.setFb m).aspectEn = s.aspectEn := rfl
@[simp] theorem State.setFb_aspect (s : State) (m : Memory) : (s.setFb m).aspect = s.aspect := rfl
@[simp] theorem State.setFb_pal (s : State) (m : Memory) : (s.setFb m).pal = s.pal := rfl
@[simp] theorem State.setFb_glyph (s : State) (m : Memory) : (s.setFb m).glyph = s.glyph := rfl
@[simp] theorem State.setFb_down (s : State) (m : Memory) : (s.setFb m).down = s.down := rfl
@[simp] theorem State.setFb_pressed (s : State) (m : Memory) : (s.setFb m).pressed = s.pressed := rfl
@[simp] theorem State.setFb_mx (s : State) (m : Memory) : (s.setFb m).mx = s.mx := rfl
@[simp] theorem State.setFb_my (s : State) (m : Memory) : (s.setFb m).my = s.my := rfl
@[simp] theorem State.setFb_text (s : State) (m : Memory) : (s.setFb m).text = s.text := rfl
@[simp] theorem State.setFb_seed (s : State) (m : Memory) : (s.setFb m).seed = s.seed := rfl
@[simp] theorem State.setFb_quit (s : State) (m : Memory) : (s.setFb m).quit = s.quit := rfl
@[simp] theorem State.setFb_cbEn (s : State) (m : Memory) : (s.setFb m).cbEn = s.cbEn := rfl
@[simp] theorem State.setFb_err (s : State) (m : Memory) : (s.setFb m).err = s.err := rfl
@[simp] theorem State.setFb_errcmd (s : State) (m : Memory) : (s.setFb m).errcmd = s.errcmd := rfl
@[simp] theorem State.setFb_lastt (s : State) (m : Memory) : (s.setFb m).lastt = s.lastt := rfl
@[simp] theorem State.setFb_evq (s : State) (m : Memory) : (s.setFb m).evq = s.evq := rfl
@[simp] theorem State.setFb_opened (s : State) (m : Memory) : (s.setFb m).opened = s.opened := rfl
@[simp] theorem State.setFb_cmdPort (s : State) (m : Memory) : (s.setFb m).cmdPort = s.cmdPort := rfl
@[simp] theorem State.setFb_rspPort (s : State) (m : Memory) : (s.setFb m).rspPort = s.rspPort := rfl
@[simp] theorem State.setFb_dispPort (s : State) (m : Memory) : (s.setFb m).dispPort = s.dispPort := rfl
@[simp] theorem State.setFb_cbPort (s : State) (m : Memory) : (s.setFb m).cbPort = s.cbPort := rfl
@[simp] theorem State.setFb_now (s : State) (m : Memory) : (s.setFb m).now = s.now := rfl
@[simp] theorem State.setFb_devices (s : State) (m : Memory) : (s.setFb m).devices = s.devices := rfl
@[simp] theorem State.setFb_turns (s : State) (m : Memory) : (s.setFb m).turns = s.turns := rfl
@[simp] theorem State.setFb_draws (s : State) (m : Memory) : (s.setFb m).draws = s.draws := rfl

/-! ### setClip -/

@[simp] theorem State.setClip_params (s : State) (xl yl xh yh : BitVec 16) : (s.setClip xl yl xh yh).params = s.params := rfl
@[simp] theorem State.setClip_phase (s : State) (xl yl xh yh : BitVec 16) : (s.setClip xl yl xh yh).phase = s.phase := rfl
@[simp] theorem State.setClip_w (s : State) (xl yl xh yh : BitVec 16) : (s.setClip xl yl xh yh).w = s.w := rfl
@[simp] theorem State.setClip_h (s : State) (xl yl xh yh : BitVec 16) : (s.setClip xl yl xh yh).h = s.h := rfl
@[simp] theorem State.setClip_fb (s : State) (xl yl xh yh : BitVec 16) : (s.setClip xl yl xh yh).fb = s.fb := rfl
@[simp] theorem State.setClip_xl (s : State) (xl yl xh yh : BitVec 16) : (s.setClip xl yl xh yh).xl = xl := rfl
@[simp] theorem State.setClip_yl (s : State) (xl yl xh yh : BitVec 16) : (s.setClip xl yl xh yh).yl = yl := rfl
@[simp] theorem State.setClip_xh (s : State) (xl yl xh yh : BitVec 16) : (s.setClip xl yl xh yh).xh = xh := rfl
@[simp] theorem State.setClip_yh (s : State) (xl yl xh yh : BitVec 16) : (s.setClip xl yl xh yh).yh = yh := rfl
@[simp] theorem State.setClip_dx (s : State) (xl yl xh yh : BitVec 16) : (s.setClip xl yl xh yh).dx = s.dx := rfl
@[simp] theorem State.setClip_dy (s : State) (xl yl xh yh : BitVec 16) : (s.setClip xl yl xh yh).dy = s.dy := rfl
@[simp] theorem State.setClip_aspectEn (s : State) (xl yl xh yh : BitVec 16) : (s.setClip xl yl xh yh).aspectEn = s.aspectEn := rfl
@[simp] theorem State.setClip_aspect (s : State) (xl yl xh yh : BitVec 16) : (s.setClip xl yl xh yh).aspect = s.aspect := rfl
@[simp] theorem State.setClip_pal (s : State) (xl yl xh yh : BitVec 16) : (s.setClip xl yl xh yh).pal = s.pal := rfl
@[simp] theorem State.setClip_glyph (s : State) (xl yl xh yh : BitVec 16) : (s.setClip xl yl xh yh).glyph = s.glyph := rfl
@[simp] theorem State.setClip_down (s : State) (xl yl xh yh : BitVec 16) : (s.setClip xl yl xh yh).down = s.down := rfl
@[simp] theorem State.setClip_pressed (s : State) (xl yl xh yh : BitVec 16) : (s.setClip xl yl xh yh).pressed = s.pressed := rfl
@[simp] theorem State.setClip_mx (s : State) (xl yl xh yh : BitVec 16) : (s.setClip xl yl xh yh).mx = s.mx := rfl
@[simp] theorem State.setClip_my (s : State) (xl yl xh yh : BitVec 16) : (s.setClip xl yl xh yh).my = s.my := rfl
@[simp] theorem State.setClip_text (s : State) (xl yl xh yh : BitVec 16) : (s.setClip xl yl xh yh).text = s.text := rfl
@[simp] theorem State.setClip_seed (s : State) (xl yl xh yh : BitVec 16) : (s.setClip xl yl xh yh).seed = s.seed := rfl
@[simp] theorem State.setClip_quit (s : State) (xl yl xh yh : BitVec 16) : (s.setClip xl yl xh yh).quit = s.quit := rfl
@[simp] theorem State.setClip_cbEn (s : State) (xl yl xh yh : BitVec 16) : (s.setClip xl yl xh yh).cbEn = s.cbEn := rfl
@[simp] theorem State.setClip_err (s : State) (xl yl xh yh : BitVec 16) : (s.setClip xl yl xh yh).err = s.err := rfl
@[simp] theorem State.setClip_errcmd (s : State) (xl yl xh yh : BitVec 16) : (s.setClip xl yl xh yh).errcmd = s.errcmd := rfl
@[simp] theorem State.setClip_lastt (s : State) (xl yl xh yh : BitVec 16) : (s.setClip xl yl xh yh).lastt = s.lastt := rfl
@[simp] theorem State.setClip_evq (s : State) (xl yl xh yh : BitVec 16) : (s.setClip xl yl xh yh).evq = s.evq := rfl
@[simp] theorem State.setClip_opened (s : State) (xl yl xh yh : BitVec 16) : (s.setClip xl yl xh yh).opened = s.opened := rfl
@[simp] theorem State.setClip_cmdPort (s : State) (xl yl xh yh : BitVec 16) : (s.setClip xl yl xh yh).cmdPort = s.cmdPort := rfl
@[simp] theorem State.setClip_rspPort (s : State) (xl yl xh yh : BitVec 16) : (s.setClip xl yl xh yh).rspPort = s.rspPort := rfl
@[simp] theorem State.setClip_dispPort (s : State) (xl yl xh yh : BitVec 16) : (s.setClip xl yl xh yh).dispPort = s.dispPort := rfl
@[simp] theorem State.setClip_cbPort (s : State) (xl yl xh yh : BitVec 16) : (s.setClip xl yl xh yh).cbPort = s.cbPort := rfl
@[simp] theorem State.setClip_now (s : State) (xl yl xh yh : BitVec 16) : (s.setClip xl yl xh yh).now = s.now := rfl
@[simp] theorem State.setClip_devices (s : State) (xl yl xh yh : BitVec 16) : (s.setClip xl yl xh yh).devices = s.devices := rfl
@[simp] theorem State.setClip_turns (s : State) (xl yl xh yh : BitVec 16) : (s.setClip xl yl xh yh).turns = s.turns := rfl
@[simp] theorem State.setClip_draws (s : State) (xl yl xh yh : BitVec 16) : (s.setClip xl yl xh yh).draws = s.draws := rfl

/-! ### setOffset -/

@[simp] theorem State.setOffset_params (s : State) (dx dy : BitVec 16) : (s.setOffset dx dy).params = s.params := rfl
@[simp] theorem State.setOffset_phase (s : State) (dx dy : BitVec 16) : (s.setOffset dx dy).phase = s.phase := rfl
@[simp] theorem State.setOffset_w (s : State) (dx dy : BitVec 16) : (s.setOffset dx dy).w = s.w := rfl
@[simp] theorem State.setOffset_h (s : State) (dx dy : BitVec 16) : (s.setOffset dx dy).h = s.h := rfl
@[simp] theorem State.setOffset_fb (s : State) (dx dy : BitVec 16) : (s.setOffset dx dy).fb = s.fb := rfl
@[simp] theorem State.setOffset_xl (s : State) (dx dy : BitVec 16) : (s.setOffset dx dy).xl = s.xl := rfl
@[simp] theorem State.setOffset_yl (s : State) (dx dy : BitVec 16) : (s.setOffset dx dy).yl = s.yl := rfl
@[simp] theorem State.setOffset_xh (s : State) (dx dy : BitVec 16) : (s.setOffset dx dy).xh = s.xh := rfl
@[simp] theorem State.setOffset_yh (s : State) (dx dy : BitVec 16) : (s.setOffset dx dy).yh = s.yh := rfl
@[simp] theorem State.setOffset_dx (s : State) (dx dy : BitVec 16) : (s.setOffset dx dy).dx = dx := rfl
@[simp] theorem State.setOffset_dy (s : State) (dx dy : BitVec 16) : (s.setOffset dx dy).dy = dy := rfl
@[simp] theorem State.setOffset_aspectEn (s : State) (dx dy : BitVec 16) : (s.setOffset dx dy).aspectEn = s.aspectEn := rfl
@[simp] theorem State.setOffset_aspect (s : State) (dx dy : BitVec 16) : (s.setOffset dx dy).aspect = s.aspect := rfl
@[simp] theorem State.setOffset_pal (s : State) (dx dy : BitVec 16) : (s.setOffset dx dy).pal = s.pal := rfl
@[simp] theorem State.setOffset_glyph (s : State) (dx dy : BitVec 16) : (s.setOffset dx dy).glyph = s.glyph := rfl
@[simp] theorem State.setOffset_down (s : State) (dx dy : BitVec 16) : (s.setOffset dx dy).down = s.down := rfl
@[simp] theorem State.setOffset_pressed (s : State) (dx dy : BitVec 16) : (s.setOffset dx dy).pressed = s.pressed := rfl
@[simp] theorem State.setOffset_mx (s : State) (dx dy : BitVec 16) : (s.setOffset dx dy).mx = s.mx := rfl
@[simp] theorem State.setOffset_my (s : State) (dx dy : BitVec 16) : (s.setOffset dx dy).my = s.my := rfl
@[simp] theorem State.setOffset_text (s : State) (dx dy : BitVec 16) : (s.setOffset dx dy).text = s.text := rfl
@[simp] theorem State.setOffset_seed (s : State) (dx dy : BitVec 16) : (s.setOffset dx dy).seed = s.seed := rfl
@[simp] theorem State.setOffset_quit (s : State) (dx dy : BitVec 16) : (s.setOffset dx dy).quit = s.quit := rfl
@[simp] theorem State.setOffset_cbEn (s : State) (dx dy : BitVec 16) : (s.setOffset dx dy).cbEn = s.cbEn := rfl
@[simp] theorem State.setOffset_err (s : State) (dx dy : BitVec 16) : (s.setOffset dx dy).err = s.err := rfl
@[simp] theorem State.setOffset_errcmd (s : State) (dx dy : BitVec 16) : (s.setOffset dx dy).errcmd = s.errcmd := rfl
@[simp] theorem State.setOffset_lastt (s : State) (dx dy : BitVec 16) : (s.setOffset dx dy).lastt = s.lastt := rfl
@[simp] theorem State.setOffset_evq (s : State) (dx dy : BitVec 16) : (s.setOffset dx dy).evq = s.evq := rfl
@[simp] theorem State.setOffset_opened (s : State) (dx dy : BitVec 16) : (s.setOffset dx dy).opened = s.opened := rfl
@[simp] theorem State.setOffset_cmdPort (s : State) (dx dy : BitVec 16) : (s.setOffset dx dy).cmdPort = s.cmdPort := rfl
@[simp] theorem State.setOffset_rspPort (s : State) (dx dy : BitVec 16) : (s.setOffset dx dy).rspPort = s.rspPort := rfl
@[simp] theorem State.setOffset_dispPort (s : State) (dx dy : BitVec 16) : (s.setOffset dx dy).dispPort = s.dispPort := rfl
@[simp] theorem State.setOffset_cbPort (s : State) (dx dy : BitVec 16) : (s.setOffset dx dy).cbPort = s.cbPort := rfl
@[simp] theorem State.setOffset_now (s : State) (dx dy : BitVec 16) : (s.setOffset dx dy).now = s.now := rfl
@[simp] theorem State.setOffset_devices (s : State) (dx dy : BitVec 16) : (s.setOffset dx dy).devices = s.devices := rfl
@[simp] theorem State.setOffset_turns (s : State) (dx dy : BitVec 16) : (s.setOffset dx dy).turns = s.turns := rfl
@[simp] theorem State.setOffset_draws (s : State) (dx dy : BitVec 16) : (s.setOffset dx dy).draws = s.draws := rfl

/-! ### setAspectEn -/

@[simp] theorem State.setAspectEn_params (s : State) (b : Bool) : (s.setAspectEn b).params = s.params := rfl
@[simp] theorem State.setAspectEn_phase (s : State) (b : Bool) : (s.setAspectEn b).phase = s.phase := rfl
@[simp] theorem State.setAspectEn_w (s : State) (b : Bool) : (s.setAspectEn b).w = s.w := rfl
@[simp] theorem State.setAspectEn_h (s : State) (b : Bool) : (s.setAspectEn b).h = s.h := rfl
@[simp] theorem State.setAspectEn_fb (s : State) (b : Bool) : (s.setAspectEn b).fb = s.fb := rfl
@[simp] theorem State.setAspectEn_xl (s : State) (b : Bool) : (s.setAspectEn b).xl = s.xl := rfl
@[simp] theorem State.setAspectEn_yl (s : State) (b : Bool) : (s.setAspectEn b).yl = s.yl := rfl
@[simp] theorem State.setAspectEn_xh (s : State) (b : Bool) : (s.setAspectEn b).xh = s.xh := rfl
@[simp] theorem State.setAspectEn_yh (s : State) (b : Bool) : (s.setAspectEn b).yh = s.yh := rfl
@[simp] theorem State.setAspectEn_dx (s : State) (b : Bool) : (s.setAspectEn b).dx = s.dx := rfl
@[simp] theorem State.setAspectEn_dy (s : State) (b : Bool) : (s.setAspectEn b).dy = s.dy := rfl
@[simp] theorem State.setAspectEn_aspectEn (s : State) (b : Bool) : (s.setAspectEn b).aspectEn = b := rfl
@[simp] theorem State.setAspectEn_aspect (s : State) (b : Bool) : (s.setAspectEn b).aspect = s.aspect := rfl
@[simp] theorem State.setAspectEn_pal (s : State) (b : Bool) : (s.setAspectEn b).pal = s.pal := rfl
@[simp] theorem State.setAspectEn_glyph (s : State) (b : Bool) : (s.setAspectEn b).glyph = s.glyph := rfl
@[simp] theorem State.setAspectEn_down (s : State) (b : Bool) : (s.setAspectEn b).down = s.down := rfl
@[simp] theorem State.setAspectEn_pressed (s : State) (b : Bool) : (s.setAspectEn b).pressed = s.pressed := rfl
@[simp] theorem State.setAspectEn_mx (s : State) (b : Bool) : (s.setAspectEn b).mx = s.mx := rfl
@[simp] theorem State.setAspectEn_my (s : State) (b : Bool) : (s.setAspectEn b).my = s.my := rfl
@[simp] theorem State.setAspectEn_text (s : State) (b : Bool) : (s.setAspectEn b).text = s.text := rfl
@[simp] theorem State.setAspectEn_seed (s : State) (b : Bool) : (s.setAspectEn b).seed = s.seed := rfl
@[simp] theorem State.setAspectEn_quit (s : State) (b : Bool) : (s.setAspectEn b).quit = s.quit := rfl
@[simp] theorem State.setAspectEn_cbEn (s : State) (b : Bool) : (s.setAspectEn b).cbEn = s.cbEn := rfl
@[simp] theorem State.setAspectEn_err (s : State) (b : Bool) : (s.setAspectEn b).err = s.err := rfl
@[simp] theorem State.setAspectEn_errcmd (s : State) (b : Bool) : (s.setAspectEn b).errcmd = s.errcmd := rfl
@[simp] theorem State.setAspectEn_lastt (s : State) (b : Bool) : (s.setAspectEn b).lastt = s.lastt := rfl
@[simp] theorem State.setAspectEn_evq (s : State) (b : Bool) : (s.setAspectEn b).evq = s.evq := rfl
@[simp] theorem State.setAspectEn_opened (s : State) (b : Bool) : (s.setAspectEn b).opened = s.opened := rfl
@[simp] theorem State.setAspectEn_cmdPort (s : State) (b : Bool) : (s.setAspectEn b).cmdPort = s.cmdPort := rfl
@[simp] theorem State.setAspectEn_rspPort (s : State) (b : Bool) : (s.setAspectEn b).rspPort = s.rspPort := rfl
@[simp] theorem State.setAspectEn_dispPort (s : State) (b : Bool) : (s.setAspectEn b).dispPort = s.dispPort := rfl
@[simp] theorem State.setAspectEn_cbPort (s : State) (b : Bool) : (s.setAspectEn b).cbPort = s.cbPort := rfl
@[simp] theorem State.setAspectEn_now (s : State) (b : Bool) : (s.setAspectEn b).now = s.now := rfl
@[simp] theorem State.setAspectEn_devices (s : State) (b : Bool) : (s.setAspectEn b).devices = s.devices := rfl
@[simp] theorem State.setAspectEn_turns (s : State) (b : Bool) : (s.setAspectEn b).turns = s.turns := rfl
@[simp] theorem State.setAspectEn_draws (s : State) (b : Bool) : (s.setAspectEn b).draws = s.draws := rfl

/-! ### setAspect -/

@[simp] theorem State.setAspect_params (s : State) (v : Word) : (s.setAspect v).params = s.params := rfl
@[simp] theorem State.setAspect_phase (s : State) (v : Word) : (s.setAspect v).phase = s.phase := rfl
@[simp] theorem State.setAspect_w (s : State) (v : Word) : (s.setAspect v).w = s.w := rfl
@[simp] theorem State.setAspect_h (s : State) (v : Word) : (s.setAspect v).h = s.h := rfl
@[simp] theorem State.setAspect_fb (s : State) (v : Word) : (s.setAspect v).fb = s.fb := rfl
@[simp] theorem State.setAspect_xl (s : State) (v : Word) : (s.setAspect v).xl = s.xl := rfl
@[simp] theorem State.setAspect_yl (s : State) (v : Word) : (s.setAspect v).yl = s.yl := rfl
@[simp] theorem State.setAspect_xh (s : State) (v : Word) : (s.setAspect v).xh = s.xh := rfl
@[simp] theorem State.setAspect_yh (s : State) (v : Word) : (s.setAspect v).yh = s.yh := rfl
@[simp] theorem State.setAspect_dx (s : State) (v : Word) : (s.setAspect v).dx = s.dx := rfl
@[simp] theorem State.setAspect_dy (s : State) (v : Word) : (s.setAspect v).dy = s.dy := rfl
@[simp] theorem State.setAspect_aspectEn (s : State) (v : Word) : (s.setAspect v).aspectEn = s.aspectEn := rfl
@[simp] theorem State.setAspect_aspect (s : State) (v : Word) : (s.setAspect v).aspect = v := rfl
@[simp] theorem State.setAspect_pal (s : State) (v : Word) : (s.setAspect v).pal = s.pal := rfl
@[simp] theorem State.setAspect_glyph (s : State) (v : Word) : (s.setAspect v).glyph = s.glyph := rfl
@[simp] theorem State.setAspect_down (s : State) (v : Word) : (s.setAspect v).down = s.down := rfl
@[simp] theorem State.setAspect_pressed (s : State) (v : Word) : (s.setAspect v).pressed = s.pressed := rfl
@[simp] theorem State.setAspect_mx (s : State) (v : Word) : (s.setAspect v).mx = s.mx := rfl
@[simp] theorem State.setAspect_my (s : State) (v : Word) : (s.setAspect v).my = s.my := rfl
@[simp] theorem State.setAspect_text (s : State) (v : Word) : (s.setAspect v).text = s.text := rfl
@[simp] theorem State.setAspect_seed (s : State) (v : Word) : (s.setAspect v).seed = s.seed := rfl
@[simp] theorem State.setAspect_quit (s : State) (v : Word) : (s.setAspect v).quit = s.quit := rfl
@[simp] theorem State.setAspect_cbEn (s : State) (v : Word) : (s.setAspect v).cbEn = s.cbEn := rfl
@[simp] theorem State.setAspect_err (s : State) (v : Word) : (s.setAspect v).err = s.err := rfl
@[simp] theorem State.setAspect_errcmd (s : State) (v : Word) : (s.setAspect v).errcmd = s.errcmd := rfl
@[simp] theorem State.setAspect_lastt (s : State) (v : Word) : (s.setAspect v).lastt = s.lastt := rfl
@[simp] theorem State.setAspect_evq (s : State) (v : Word) : (s.setAspect v).evq = s.evq := rfl
@[simp] theorem State.setAspect_opened (s : State) (v : Word) : (s.setAspect v).opened = s.opened := rfl
@[simp] theorem State.setAspect_cmdPort (s : State) (v : Word) : (s.setAspect v).cmdPort = s.cmdPort := rfl
@[simp] theorem State.setAspect_rspPort (s : State) (v : Word) : (s.setAspect v).rspPort = s.rspPort := rfl
@[simp] theorem State.setAspect_dispPort (s : State) (v : Word) : (s.setAspect v).dispPort = s.dispPort := rfl
@[simp] theorem State.setAspect_cbPort (s : State) (v : Word) : (s.setAspect v).cbPort = s.cbPort := rfl
@[simp] theorem State.setAspect_now (s : State) (v : Word) : (s.setAspect v).now = s.now := rfl
@[simp] theorem State.setAspect_devices (s : State) (v : Word) : (s.setAspect v).devices = s.devices := rfl
@[simp] theorem State.setAspect_turns (s : State) (v : Word) : (s.setAspect v).turns = s.turns := rfl
@[simp] theorem State.setAspect_draws (s : State) (v : Word) : (s.setAspect v).draws = s.draws := rfl

/-! ### setPal -/

@[simp] theorem State.setPal_params (s : State) (p : Vector Rgb 16) : (s.setPal p).params = s.params := rfl
@[simp] theorem State.setPal_phase (s : State) (p : Vector Rgb 16) : (s.setPal p).phase = s.phase := rfl
@[simp] theorem State.setPal_w (s : State) (p : Vector Rgb 16) : (s.setPal p).w = s.w := rfl
@[simp] theorem State.setPal_h (s : State) (p : Vector Rgb 16) : (s.setPal p).h = s.h := rfl
@[simp] theorem State.setPal_fb (s : State) (p : Vector Rgb 16) : (s.setPal p).fb = s.fb := rfl
@[simp] theorem State.setPal_xl (s : State) (p : Vector Rgb 16) : (s.setPal p).xl = s.xl := rfl
@[simp] theorem State.setPal_yl (s : State) (p : Vector Rgb 16) : (s.setPal p).yl = s.yl := rfl
@[simp] theorem State.setPal_xh (s : State) (p : Vector Rgb 16) : (s.setPal p).xh = s.xh := rfl
@[simp] theorem State.setPal_yh (s : State) (p : Vector Rgb 16) : (s.setPal p).yh = s.yh := rfl
@[simp] theorem State.setPal_dx (s : State) (p : Vector Rgb 16) : (s.setPal p).dx = s.dx := rfl
@[simp] theorem State.setPal_dy (s : State) (p : Vector Rgb 16) : (s.setPal p).dy = s.dy := rfl
@[simp] theorem State.setPal_aspectEn (s : State) (p : Vector Rgb 16) : (s.setPal p).aspectEn = s.aspectEn := rfl
@[simp] theorem State.setPal_aspect (s : State) (p : Vector Rgb 16) : (s.setPal p).aspect = s.aspect := rfl
@[simp] theorem State.setPal_pal (s : State) (p : Vector Rgb 16) : (s.setPal p).pal = p := rfl
@[simp] theorem State.setPal_glyph (s : State) (p : Vector Rgb 16) : (s.setPal p).glyph = s.glyph := rfl
@[simp] theorem State.setPal_down (s : State) (p : Vector Rgb 16) : (s.setPal p).down = s.down := rfl
@[simp] theorem State.setPal_pressed (s : State) (p : Vector Rgb 16) : (s.setPal p).pressed = s.pressed := rfl
@[simp] theorem State.setPal_mx (s : State) (p : Vector Rgb 16) : (s.setPal p).mx = s.mx := rfl
@[simp] theorem State.setPal_my (s : State) (p : Vector Rgb 16) : (s.setPal p).my = s.my := rfl
@[simp] theorem State.setPal_text (s : State) (p : Vector Rgb 16) : (s.setPal p).text = s.text := rfl
@[simp] theorem State.setPal_seed (s : State) (p : Vector Rgb 16) : (s.setPal p).seed = s.seed := rfl
@[simp] theorem State.setPal_quit (s : State) (p : Vector Rgb 16) : (s.setPal p).quit = s.quit := rfl
@[simp] theorem State.setPal_cbEn (s : State) (p : Vector Rgb 16) : (s.setPal p).cbEn = s.cbEn := rfl
@[simp] theorem State.setPal_err (s : State) (p : Vector Rgb 16) : (s.setPal p).err = s.err := rfl
@[simp] theorem State.setPal_errcmd (s : State) (p : Vector Rgb 16) : (s.setPal p).errcmd = s.errcmd := rfl
@[simp] theorem State.setPal_lastt (s : State) (p : Vector Rgb 16) : (s.setPal p).lastt = s.lastt := rfl
@[simp] theorem State.setPal_evq (s : State) (p : Vector Rgb 16) : (s.setPal p).evq = s.evq := rfl
@[simp] theorem State.setPal_opened (s : State) (p : Vector Rgb 16) : (s.setPal p).opened = s.opened := rfl
@[simp] theorem State.setPal_cmdPort (s : State) (p : Vector Rgb 16) : (s.setPal p).cmdPort = s.cmdPort := rfl
@[simp] theorem State.setPal_rspPort (s : State) (p : Vector Rgb 16) : (s.setPal p).rspPort = s.rspPort := rfl
@[simp] theorem State.setPal_dispPort (s : State) (p : Vector Rgb 16) : (s.setPal p).dispPort = s.dispPort := rfl
@[simp] theorem State.setPal_cbPort (s : State) (p : Vector Rgb 16) : (s.setPal p).cbPort = s.cbPort := rfl
@[simp] theorem State.setPal_now (s : State) (p : Vector Rgb 16) : (s.setPal p).now = s.now := rfl
@[simp] theorem State.setPal_devices (s : State) (p : Vector Rgb 16) : (s.setPal p).devices = s.devices := rfl
@[simp] theorem State.setPal_turns (s : State) (p : Vector Rgb 16) : (s.setPal p).turns = s.turns := rfl
@[simp] theorem State.setPal_draws (s : State) (p : Vector Rgb 16) : (s.setPal p).draws = s.draws := rfl

/-! ### setGlyphs -/

@[simp] theorem State.setGlyphs_params (s : State) (g : Vector Glyph 128) : (s.setGlyphs g).params = s.params := rfl
@[simp] theorem State.setGlyphs_phase (s : State) (g : Vector Glyph 128) : (s.setGlyphs g).phase = s.phase := rfl
@[simp] theorem State.setGlyphs_w (s : State) (g : Vector Glyph 128) : (s.setGlyphs g).w = s.w := rfl
@[simp] theorem State.setGlyphs_h (s : State) (g : Vector Glyph 128) : (s.setGlyphs g).h = s.h := rfl
@[simp] theorem State.setGlyphs_fb (s : State) (g : Vector Glyph 128) : (s.setGlyphs g).fb = s.fb := rfl
@[simp] theorem State.setGlyphs_xl (s : State) (g : Vector Glyph 128) : (s.setGlyphs g).xl = s.xl := rfl
@[simp] theorem State.setGlyphs_yl (s : State) (g : Vector Glyph 128) : (s.setGlyphs g).yl = s.yl := rfl
@[simp] theorem State.setGlyphs_xh (s : State) (g : Vector Glyph 128) : (s.setGlyphs g).xh = s.xh := rfl
@[simp] theorem State.setGlyphs_yh (s : State) (g : Vector Glyph 128) : (s.setGlyphs g).yh = s.yh := rfl
@[simp] theorem State.setGlyphs_dx (s : State) (g : Vector Glyph 128) : (s.setGlyphs g).dx = s.dx := rfl
@[simp] theorem State.setGlyphs_dy (s : State) (g : Vector Glyph 128) : (s.setGlyphs g).dy = s.dy := rfl
@[simp] theorem State.setGlyphs_aspectEn (s : State) (g : Vector Glyph 128) : (s.setGlyphs g).aspectEn = s.aspectEn := rfl
@[simp] theorem State.setGlyphs_aspect (s : State) (g : Vector Glyph 128) : (s.setGlyphs g).aspect = s.aspect := rfl
@[simp] theorem State.setGlyphs_pal (s : State) (g : Vector Glyph 128) : (s.setGlyphs g).pal = s.pal := rfl
@[simp] theorem State.setGlyphs_glyph (s : State) (g : Vector Glyph 128) : (s.setGlyphs g).glyph = g := rfl
@[simp] theorem State.setGlyphs_down (s : State) (g : Vector Glyph 128) : (s.setGlyphs g).down = s.down := rfl
@[simp] theorem State.setGlyphs_pressed (s : State) (g : Vector Glyph 128) : (s.setGlyphs g).pressed = s.pressed := rfl
@[simp] theorem State.setGlyphs_mx (s : State) (g : Vector Glyph 128) : (s.setGlyphs g).mx = s.mx := rfl
@[simp] theorem State.setGlyphs_my (s : State) (g : Vector Glyph 128) : (s.setGlyphs g).my = s.my := rfl
@[simp] theorem State.setGlyphs_text (s : State) (g : Vector Glyph 128) : (s.setGlyphs g).text = s.text := rfl
@[simp] theorem State.setGlyphs_seed (s : State) (g : Vector Glyph 128) : (s.setGlyphs g).seed = s.seed := rfl
@[simp] theorem State.setGlyphs_quit (s : State) (g : Vector Glyph 128) : (s.setGlyphs g).quit = s.quit := rfl
@[simp] theorem State.setGlyphs_cbEn (s : State) (g : Vector Glyph 128) : (s.setGlyphs g).cbEn = s.cbEn := rfl
@[simp] theorem State.setGlyphs_err (s : State) (g : Vector Glyph 128) : (s.setGlyphs g).err = s.err := rfl
@[simp] theorem State.setGlyphs_errcmd (s : State) (g : Vector Glyph 128) : (s.setGlyphs g).errcmd = s.errcmd := rfl
@[simp] theorem State.setGlyphs_lastt (s : State) (g : Vector Glyph 128) : (s.setGlyphs g).lastt = s.lastt := rfl
@[simp] theorem State.setGlyphs_evq (s : State) (g : Vector Glyph 128) : (s.setGlyphs g).evq = s.evq := rfl
@[simp] theorem State.setGlyphs_opened (s : State) (g : Vector Glyph 128) : (s.setGlyphs g).opened = s.opened := rfl
@[simp] theorem State.setGlyphs_cmdPort (s : State) (g : Vector Glyph 128) : (s.setGlyphs g).cmdPort = s.cmdPort := rfl
@[simp] theorem State.setGlyphs_rspPort (s : State) (g : Vector Glyph 128) : (s.setGlyphs g).rspPort = s.rspPort := rfl
@[simp] theorem State.setGlyphs_dispPort (s : State) (g : Vector Glyph 128) : (s.setGlyphs g).dispPort = s.dispPort := rfl
@[simp] theorem State.setGlyphs_cbPort (s : State) (g : Vector Glyph 128) : (s.setGlyphs g).cbPort = s.cbPort := rfl
@[simp] theorem State.setGlyphs_now (s : State) (g : Vector Glyph 128) : (s.setGlyphs g).now = s.now := rfl
@[simp] theorem State.setGlyphs_devices (s : State) (g : Vector Glyph 128) : (s.setGlyphs g).devices = s.devices := rfl
@[simp] theorem State.setGlyphs_turns (s : State) (g : Vector Glyph 128) : (s.setGlyphs g).turns = s.turns := rfl
@[simp] theorem State.setGlyphs_draws (s : State) (g : Vector Glyph 128) : (s.setGlyphs g).draws = s.draws := rfl

/-! ### setDown -/

@[simp] theorem State.setDown_params (s : State) (m : BitVec 10) : (s.setDown m).params = s.params := rfl
@[simp] theorem State.setDown_phase (s : State) (m : BitVec 10) : (s.setDown m).phase = s.phase := rfl
@[simp] theorem State.setDown_w (s : State) (m : BitVec 10) : (s.setDown m).w = s.w := rfl
@[simp] theorem State.setDown_h (s : State) (m : BitVec 10) : (s.setDown m).h = s.h := rfl
@[simp] theorem State.setDown_fb (s : State) (m : BitVec 10) : (s.setDown m).fb = s.fb := rfl
@[simp] theorem State.setDown_xl (s : State) (m : BitVec 10) : (s.setDown m).xl = s.xl := rfl
@[simp] theorem State.setDown_yl (s : State) (m : BitVec 10) : (s.setDown m).yl = s.yl := rfl
@[simp] theorem State.setDown_xh (s : State) (m : BitVec 10) : (s.setDown m).xh = s.xh := rfl
@[simp] theorem State.setDown_yh (s : State) (m : BitVec 10) : (s.setDown m).yh = s.yh := rfl
@[simp] theorem State.setDown_dx (s : State) (m : BitVec 10) : (s.setDown m).dx = s.dx := rfl
@[simp] theorem State.setDown_dy (s : State) (m : BitVec 10) : (s.setDown m).dy = s.dy := rfl
@[simp] theorem State.setDown_aspectEn (s : State) (m : BitVec 10) : (s.setDown m).aspectEn = s.aspectEn := rfl
@[simp] theorem State.setDown_aspect (s : State) (m : BitVec 10) : (s.setDown m).aspect = s.aspect := rfl
@[simp] theorem State.setDown_pal (s : State) (m : BitVec 10) : (s.setDown m).pal = s.pal := rfl
@[simp] theorem State.setDown_glyph (s : State) (m : BitVec 10) : (s.setDown m).glyph = s.glyph := rfl
@[simp] theorem State.setDown_down (s : State) (m : BitVec 10) : (s.setDown m).down = m := rfl
@[simp] theorem State.setDown_pressed (s : State) (m : BitVec 10) : (s.setDown m).pressed = s.pressed := rfl
@[simp] theorem State.setDown_mx (s : State) (m : BitVec 10) : (s.setDown m).mx = s.mx := rfl
@[simp] theorem State.setDown_my (s : State) (m : BitVec 10) : (s.setDown m).my = s.my := rfl
@[simp] theorem State.setDown_text (s : State) (m : BitVec 10) : (s.setDown m).text = s.text := rfl
@[simp] theorem State.setDown_seed (s : State) (m : BitVec 10) : (s.setDown m).seed = s.seed := rfl
@[simp] theorem State.setDown_quit (s : State) (m : BitVec 10) : (s.setDown m).quit = s.quit := rfl
@[simp] theorem State.setDown_cbEn (s : State) (m : BitVec 10) : (s.setDown m).cbEn = s.cbEn := rfl
@[simp] theorem State.setDown_err (s : State) (m : BitVec 10) : (s.setDown m).err = s.err := rfl
@[simp] theorem State.setDown_errcmd (s : State) (m : BitVec 10) : (s.setDown m).errcmd = s.errcmd := rfl
@[simp] theorem State.setDown_lastt (s : State) (m : BitVec 10) : (s.setDown m).lastt = s.lastt := rfl
@[simp] theorem State.setDown_evq (s : State) (m : BitVec 10) : (s.setDown m).evq = s.evq := rfl
@[simp] theorem State.setDown_opened (s : State) (m : BitVec 10) : (s.setDown m).opened = s.opened := rfl
@[simp] theorem State.setDown_cmdPort (s : State) (m : BitVec 10) : (s.setDown m).cmdPort = s.cmdPort := rfl
@[simp] theorem State.setDown_rspPort (s : State) (m : BitVec 10) : (s.setDown m).rspPort = s.rspPort := rfl
@[simp] theorem State.setDown_dispPort (s : State) (m : BitVec 10) : (s.setDown m).dispPort = s.dispPort := rfl
@[simp] theorem State.setDown_cbPort (s : State) (m : BitVec 10) : (s.setDown m).cbPort = s.cbPort := rfl
@[simp] theorem State.setDown_now (s : State) (m : BitVec 10) : (s.setDown m).now = s.now := rfl
@[simp] theorem State.setDown_devices (s : State) (m : BitVec 10) : (s.setDown m).devices = s.devices := rfl
@[simp] theorem State.setDown_turns (s : State) (m : BitVec 10) : (s.setDown m).turns = s.turns := rfl
@[simp] theorem State.setDown_draws (s : State) (m : BitVec 10) : (s.setDown m).draws = s.draws := rfl

/-! ### setPressed -/

@[simp] theorem State.setPressed_params (s : State) (m : BitVec 10) : (s.setPressed m).params = s.params := rfl
@[simp] theorem State.setPressed_phase (s : State) (m : BitVec 10) : (s.setPressed m).phase = s.phase := rfl
@[simp] theorem State.setPressed_w (s : State) (m : BitVec 10) : (s.setPressed m).w = s.w := rfl
@[simp] theorem State.setPressed_h (s : State) (m : BitVec 10) : (s.setPressed m).h = s.h := rfl
@[simp] theorem State.setPressed_fb (s : State) (m : BitVec 10) : (s.setPressed m).fb = s.fb := rfl
@[simp] theorem State.setPressed_xl (s : State) (m : BitVec 10) : (s.setPressed m).xl = s.xl := rfl
@[simp] theorem State.setPressed_yl (s : State) (m : BitVec 10) : (s.setPressed m).yl = s.yl := rfl
@[simp] theorem State.setPressed_xh (s : State) (m : BitVec 10) : (s.setPressed m).xh = s.xh := rfl
@[simp] theorem State.setPressed_yh (s : State) (m : BitVec 10) : (s.setPressed m).yh = s.yh := rfl
@[simp] theorem State.setPressed_dx (s : State) (m : BitVec 10) : (s.setPressed m).dx = s.dx := rfl
@[simp] theorem State.setPressed_dy (s : State) (m : BitVec 10) : (s.setPressed m).dy = s.dy := rfl
@[simp] theorem State.setPressed_aspectEn (s : State) (m : BitVec 10) : (s.setPressed m).aspectEn = s.aspectEn := rfl
@[simp] theorem State.setPressed_aspect (s : State) (m : BitVec 10) : (s.setPressed m).aspect = s.aspect := rfl
@[simp] theorem State.setPressed_pal (s : State) (m : BitVec 10) : (s.setPressed m).pal = s.pal := rfl
@[simp] theorem State.setPressed_glyph (s : State) (m : BitVec 10) : (s.setPressed m).glyph = s.glyph := rfl
@[simp] theorem State.setPressed_down (s : State) (m : BitVec 10) : (s.setPressed m).down = s.down := rfl
@[simp] theorem State.setPressed_pressed (s : State) (m : BitVec 10) : (s.setPressed m).pressed = m := rfl
@[simp] theorem State.setPressed_mx (s : State) (m : BitVec 10) : (s.setPressed m).mx = s.mx := rfl
@[simp] theorem State.setPressed_my (s : State) (m : BitVec 10) : (s.setPressed m).my = s.my := rfl
@[simp] theorem State.setPressed_text (s : State) (m : BitVec 10) : (s.setPressed m).text = s.text := rfl
@[simp] theorem State.setPressed_seed (s : State) (m : BitVec 10) : (s.setPressed m).seed = s.seed := rfl
@[simp] theorem State.setPressed_quit (s : State) (m : BitVec 10) : (s.setPressed m).quit = s.quit := rfl
@[simp] theorem State.setPressed_cbEn (s : State) (m : BitVec 10) : (s.setPressed m).cbEn = s.cbEn := rfl
@[simp] theorem State.setPressed_err (s : State) (m : BitVec 10) : (s.setPressed m).err = s.err := rfl
@[simp] theorem State.setPressed_errcmd (s : State) (m : BitVec 10) : (s.setPressed m).errcmd = s.errcmd := rfl
@[simp] theorem State.setPressed_lastt (s : State) (m : BitVec 10) : (s.setPressed m).lastt = s.lastt := rfl
@[simp] theorem State.setPressed_evq (s : State) (m : BitVec 10) : (s.setPressed m).evq = s.evq := rfl
@[simp] theorem State.setPressed_opened (s : State) (m : BitVec 10) : (s.setPressed m).opened = s.opened := rfl
@[simp] theorem State.setPressed_cmdPort (s : State) (m : BitVec 10) : (s.setPressed m).cmdPort = s.cmdPort := rfl
@[simp] theorem State.setPressed_rspPort (s : State) (m : BitVec 10) : (s.setPressed m).rspPort = s.rspPort := rfl
@[simp] theorem State.setPressed_dispPort (s : State) (m : BitVec 10) : (s.setPressed m).dispPort = s.dispPort := rfl
@[simp] theorem State.setPressed_cbPort (s : State) (m : BitVec 10) : (s.setPressed m).cbPort = s.cbPort := rfl
@[simp] theorem State.setPressed_now (s : State) (m : BitVec 10) : (s.setPressed m).now = s.now := rfl
@[simp] theorem State.setPressed_devices (s : State) (m : BitVec 10) : (s.setPressed m).devices = s.devices := rfl
@[simp] theorem State.setPressed_turns (s : State) (m : BitVec 10) : (s.setPressed m).turns = s.turns := rfl
@[simp] theorem State.setPressed_draws (s : State) (m : BitVec 10) : (s.setPressed m).draws = s.draws := rfl

/-! ### setMouse -/

@[simp] theorem State.setMouse_params (s : State) (mx my : BitVec 16) : (s.setMouse mx my).params = s.params := rfl
@[simp] theorem State.setMouse_phase (s : State) (mx my : BitVec 16) : (s.setMouse mx my).phase = s.phase := rfl
@[simp] theorem State.setMouse_w (s : State) (mx my : BitVec 16) : (s.setMouse mx my).w = s.w := rfl
@[simp] theorem State.setMouse_h (s : State) (mx my : BitVec 16) : (s.setMouse mx my).h = s.h := rfl
@[simp] theorem State.setMouse_fb (s : State) (mx my : BitVec 16) : (s.setMouse mx my).fb = s.fb := rfl
@[simp] theorem State.setMouse_xl (s : State) (mx my : BitVec 16) : (s.setMouse mx my).xl = s.xl := rfl
@[simp] theorem State.setMouse_yl (s : State) (mx my : BitVec 16) : (s.setMouse mx my).yl = s.yl := rfl
@[simp] theorem State.setMouse_xh (s : State) (mx my : BitVec 16) : (s.setMouse mx my).xh = s.xh := rfl
@[simp] theorem State.setMouse_yh (s : State) (mx my : BitVec 16) : (s.setMouse mx my).yh = s.yh := rfl
@[simp] theorem State.setMouse_dx (s : State) (mx my : BitVec 16) : (s.setMouse mx my).dx = s.dx := rfl
@[simp] theorem State.setMouse_dy (s : State) (mx my : BitVec 16) : (s.setMouse mx my).dy = s.dy := rfl
@[simp] theorem State.setMouse_aspectEn (s : State) (mx my : BitVec 16) : (s.setMouse mx my).aspectEn = s.aspectEn := rfl
@[simp] theorem State.setMouse_aspect (s : State) (mx my : BitVec 16) : (s.setMouse mx my).aspect = s.aspect := rfl
@[simp] theorem State.setMouse_pal (s : State) (mx my : BitVec 16) : (s.setMouse mx my).pal = s.pal := rfl
@[simp] theorem State.setMouse_glyph (s : State) (mx my : BitVec 16) : (s.setMouse mx my).glyph = s.glyph := rfl
@[simp] theorem State.setMouse_down (s : State) (mx my : BitVec 16) : (s.setMouse mx my).down = s.down := rfl
@[simp] theorem State.setMouse_pressed (s : State) (mx my : BitVec 16) : (s.setMouse mx my).pressed = s.pressed := rfl
@[simp] theorem State.setMouse_mx (s : State) (mx my : BitVec 16) : (s.setMouse mx my).mx = mx := rfl
@[simp] theorem State.setMouse_my (s : State) (mx my : BitVec 16) : (s.setMouse mx my).my = my := rfl
@[simp] theorem State.setMouse_text (s : State) (mx my : BitVec 16) : (s.setMouse mx my).text = s.text := rfl
@[simp] theorem State.setMouse_seed (s : State) (mx my : BitVec 16) : (s.setMouse mx my).seed = s.seed := rfl
@[simp] theorem State.setMouse_quit (s : State) (mx my : BitVec 16) : (s.setMouse mx my).quit = s.quit := rfl
@[simp] theorem State.setMouse_cbEn (s : State) (mx my : BitVec 16) : (s.setMouse mx my).cbEn = s.cbEn := rfl
@[simp] theorem State.setMouse_err (s : State) (mx my : BitVec 16) : (s.setMouse mx my).err = s.err := rfl
@[simp] theorem State.setMouse_errcmd (s : State) (mx my : BitVec 16) : (s.setMouse mx my).errcmd = s.errcmd := rfl
@[simp] theorem State.setMouse_lastt (s : State) (mx my : BitVec 16) : (s.setMouse mx my).lastt = s.lastt := rfl
@[simp] theorem State.setMouse_evq (s : State) (mx my : BitVec 16) : (s.setMouse mx my).evq = s.evq := rfl
@[simp] theorem State.setMouse_opened (s : State) (mx my : BitVec 16) : (s.setMouse mx my).opened = s.opened := rfl
@[simp] theorem State.setMouse_cmdPort (s : State) (mx my : BitVec 16) : (s.setMouse mx my).cmdPort = s.cmdPort := rfl
@[simp] theorem State.setMouse_rspPort (s : State) (mx my : BitVec 16) : (s.setMouse mx my).rspPort = s.rspPort := rfl
@[simp] theorem State.setMouse_dispPort (s : State) (mx my : BitVec 16) : (s.setMouse mx my).dispPort = s.dispPort := rfl
@[simp] theorem State.setMouse_cbPort (s : State) (mx my : BitVec 16) : (s.setMouse mx my).cbPort = s.cbPort := rfl
@[simp] theorem State.setMouse_now (s : State) (mx my : BitVec 16) : (s.setMouse mx my).now = s.now := rfl
@[simp] theorem State.setMouse_devices (s : State) (mx my : BitVec 16) : (s.setMouse mx my).devices = s.devices := rfl
@[simp] theorem State.setMouse_turns (s : State) (mx my : BitVec 16) : (s.setMouse mx my).turns = s.turns := rfl
@[simp] theorem State.setMouse_draws (s : State) (mx my : BitVec 16) : (s.setMouse mx my).draws = s.draws := rfl

/-! ### setText -/

@[simp] theorem State.setText_params (s : State) (t : List Byte) : (s.setText t).params = s.params := rfl
@[simp] theorem State.setText_phase (s : State) (t : List Byte) : (s.setText t).phase = s.phase := rfl
@[simp] theorem State.setText_w (s : State) (t : List Byte) : (s.setText t).w = s.w := rfl
@[simp] theorem State.setText_h (s : State) (t : List Byte) : (s.setText t).h = s.h := rfl
@[simp] theorem State.setText_fb (s : State) (t : List Byte) : (s.setText t).fb = s.fb := rfl
@[simp] theorem State.setText_xl (s : State) (t : List Byte) : (s.setText t).xl = s.xl := rfl
@[simp] theorem State.setText_yl (s : State) (t : List Byte) : (s.setText t).yl = s.yl := rfl
@[simp] theorem State.setText_xh (s : State) (t : List Byte) : (s.setText t).xh = s.xh := rfl
@[simp] theorem State.setText_yh (s : State) (t : List Byte) : (s.setText t).yh = s.yh := rfl
@[simp] theorem State.setText_dx (s : State) (t : List Byte) : (s.setText t).dx = s.dx := rfl
@[simp] theorem State.setText_dy (s : State) (t : List Byte) : (s.setText t).dy = s.dy := rfl
@[simp] theorem State.setText_aspectEn (s : State) (t : List Byte) : (s.setText t).aspectEn = s.aspectEn := rfl
@[simp] theorem State.setText_aspect (s : State) (t : List Byte) : (s.setText t).aspect = s.aspect := rfl
@[simp] theorem State.setText_pal (s : State) (t : List Byte) : (s.setText t).pal = s.pal := rfl
@[simp] theorem State.setText_glyph (s : State) (t : List Byte) : (s.setText t).glyph = s.glyph := rfl
@[simp] theorem State.setText_down (s : State) (t : List Byte) : (s.setText t).down = s.down := rfl
@[simp] theorem State.setText_pressed (s : State) (t : List Byte) : (s.setText t).pressed = s.pressed := rfl
@[simp] theorem State.setText_mx (s : State) (t : List Byte) : (s.setText t).mx = s.mx := rfl
@[simp] theorem State.setText_my (s : State) (t : List Byte) : (s.setText t).my = s.my := rfl
@[simp] theorem State.setText_text (s : State) (t : List Byte) : (s.setText t).text = t := rfl
@[simp] theorem State.setText_seed (s : State) (t : List Byte) : (s.setText t).seed = s.seed := rfl
@[simp] theorem State.setText_quit (s : State) (t : List Byte) : (s.setText t).quit = s.quit := rfl
@[simp] theorem State.setText_cbEn (s : State) (t : List Byte) : (s.setText t).cbEn = s.cbEn := rfl
@[simp] theorem State.setText_err (s : State) (t : List Byte) : (s.setText t).err = s.err := rfl
@[simp] theorem State.setText_errcmd (s : State) (t : List Byte) : (s.setText t).errcmd = s.errcmd := rfl
@[simp] theorem State.setText_lastt (s : State) (t : List Byte) : (s.setText t).lastt = s.lastt := rfl
@[simp] theorem State.setText_evq (s : State) (t : List Byte) : (s.setText t).evq = s.evq := rfl
@[simp] theorem State.setText_opened (s : State) (t : List Byte) : (s.setText t).opened = s.opened := rfl
@[simp] theorem State.setText_cmdPort (s : State) (t : List Byte) : (s.setText t).cmdPort = s.cmdPort := rfl
@[simp] theorem State.setText_rspPort (s : State) (t : List Byte) : (s.setText t).rspPort = s.rspPort := rfl
@[simp] theorem State.setText_dispPort (s : State) (t : List Byte) : (s.setText t).dispPort = s.dispPort := rfl
@[simp] theorem State.setText_cbPort (s : State) (t : List Byte) : (s.setText t).cbPort = s.cbPort := rfl
@[simp] theorem State.setText_now (s : State) (t : List Byte) : (s.setText t).now = s.now := rfl
@[simp] theorem State.setText_devices (s : State) (t : List Byte) : (s.setText t).devices = s.devices := rfl
@[simp] theorem State.setText_turns (s : State) (t : List Byte) : (s.setText t).turns = s.turns := rfl
@[simp] theorem State.setText_draws (s : State) (t : List Byte) : (s.setText t).draws = s.draws := rfl

/-! ### setSeed -/

@[simp] theorem State.setSeed_params (s : State) (v : Word) : (s.setSeed v).params = s.params := rfl
@[simp] theorem State.setSeed_phase (s : State) (v : Word) : (s.setSeed v).phase = s.phase := rfl
@[simp] theorem State.setSeed_w (s : State) (v : Word) : (s.setSeed v).w = s.w := rfl
@[simp] theorem State.setSeed_h (s : State) (v : Word) : (s.setSeed v).h = s.h := rfl
@[simp] theorem State.setSeed_fb (s : State) (v : Word) : (s.setSeed v).fb = s.fb := rfl
@[simp] theorem State.setSeed_xl (s : State) (v : Word) : (s.setSeed v).xl = s.xl := rfl
@[simp] theorem State.setSeed_yl (s : State) (v : Word) : (s.setSeed v).yl = s.yl := rfl
@[simp] theorem State.setSeed_xh (s : State) (v : Word) : (s.setSeed v).xh = s.xh := rfl
@[simp] theorem State.setSeed_yh (s : State) (v : Word) : (s.setSeed v).yh = s.yh := rfl
@[simp] theorem State.setSeed_dx (s : State) (v : Word) : (s.setSeed v).dx = s.dx := rfl
@[simp] theorem State.setSeed_dy (s : State) (v : Word) : (s.setSeed v).dy = s.dy := rfl
@[simp] theorem State.setSeed_aspectEn (s : State) (v : Word) : (s.setSeed v).aspectEn = s.aspectEn := rfl
@[simp] theorem State.setSeed_aspect (s : State) (v : Word) : (s.setSeed v).aspect = s.aspect := rfl
@[simp] theorem State.setSeed_pal (s : State) (v : Word) : (s.setSeed v).pal = s.pal := rfl
@[simp] theorem State.setSeed_glyph (s : State) (v : Word) : (s.setSeed v).glyph = s.glyph := rfl
@[simp] theorem State.setSeed_down (s : State) (v : Word) : (s.setSeed v).down = s.down := rfl
@[simp] theorem State.setSeed_pressed (s : State) (v : Word) : (s.setSeed v).pressed = s.pressed := rfl
@[simp] theorem State.setSeed_mx (s : State) (v : Word) : (s.setSeed v).mx = s.mx := rfl
@[simp] theorem State.setSeed_my (s : State) (v : Word) : (s.setSeed v).my = s.my := rfl
@[simp] theorem State.setSeed_text (s : State) (v : Word) : (s.setSeed v).text = s.text := rfl
@[simp] theorem State.setSeed_seed (s : State) (v : Word) : (s.setSeed v).seed = v := rfl
@[simp] theorem State.setSeed_quit (s : State) (v : Word) : (s.setSeed v).quit = s.quit := rfl
@[simp] theorem State.setSeed_cbEn (s : State) (v : Word) : (s.setSeed v).cbEn = s.cbEn := rfl
@[simp] theorem State.setSeed_err (s : State) (v : Word) : (s.setSeed v).err = s.err := rfl
@[simp] theorem State.setSeed_errcmd (s : State) (v : Word) : (s.setSeed v).errcmd = s.errcmd := rfl
@[simp] theorem State.setSeed_lastt (s : State) (v : Word) : (s.setSeed v).lastt = s.lastt := rfl
@[simp] theorem State.setSeed_evq (s : State) (v : Word) : (s.setSeed v).evq = s.evq := rfl
@[simp] theorem State.setSeed_opened (s : State) (v : Word) : (s.setSeed v).opened = s.opened := rfl
@[simp] theorem State.setSeed_cmdPort (s : State) (v : Word) : (s.setSeed v).cmdPort = s.cmdPort := rfl
@[simp] theorem State.setSeed_rspPort (s : State) (v : Word) : (s.setSeed v).rspPort = s.rspPort := rfl
@[simp] theorem State.setSeed_dispPort (s : State) (v : Word) : (s.setSeed v).dispPort = s.dispPort := rfl
@[simp] theorem State.setSeed_cbPort (s : State) (v : Word) : (s.setSeed v).cbPort = s.cbPort := rfl
@[simp] theorem State.setSeed_now (s : State) (v : Word) : (s.setSeed v).now = s.now := rfl
@[simp] theorem State.setSeed_devices (s : State) (v : Word) : (s.setSeed v).devices = s.devices := rfl
@[simp] theorem State.setSeed_turns (s : State) (v : Word) : (s.setSeed v).turns = s.turns := rfl
@[simp] theorem State.setSeed_draws (s : State) (v : Word) : (s.setSeed v).draws = s.draws := rfl

/-! ### setQuit -/

@[simp] theorem State.setQuit_params (s : State) (b : Bool) : (s.setQuit b).params = s.params := rfl
@[simp] theorem State.setQuit_phase (s : State) (b : Bool) : (s.setQuit b).phase = s.phase := rfl
@[simp] theorem State.setQuit_w (s : State) (b : Bool) : (s.setQuit b).w = s.w := rfl
@[simp] theorem State.setQuit_h (s : State) (b : Bool) : (s.setQuit b).h = s.h := rfl
@[simp] theorem State.setQuit_fb (s : State) (b : Bool) : (s.setQuit b).fb = s.fb := rfl
@[simp] theorem State.setQuit_xl (s : State) (b : Bool) : (s.setQuit b).xl = s.xl := rfl
@[simp] theorem State.setQuit_yl (s : State) (b : Bool) : (s.setQuit b).yl = s.yl := rfl
@[simp] theorem State.setQuit_xh (s : State) (b : Bool) : (s.setQuit b).xh = s.xh := rfl
@[simp] theorem State.setQuit_yh (s : State) (b : Bool) : (s.setQuit b).yh = s.yh := rfl
@[simp] theorem State.setQuit_dx (s : State) (b : Bool) : (s.setQuit b).dx = s.dx := rfl
@[simp] theorem State.setQuit_dy (s : State) (b : Bool) : (s.setQuit b).dy = s.dy := rfl
@[simp] theorem State.setQuit_aspectEn (s : State) (b : Bool) : (s.setQuit b).aspectEn = s.aspectEn := rfl
@[simp] theorem State.setQuit_aspect (s : State) (b : Bool) : (s.setQuit b).aspect = s.aspect := rfl
@[simp] theorem State.setQuit_pal (s : State) (b : Bool) : (s.setQuit b).pal = s.pal := rfl
@[simp] theorem State.setQuit_glyph (s : State) (b : Bool) : (s.setQuit b).glyph = s.glyph := rfl
@[simp] theorem State.setQuit_down (s : State) (b : Bool) : (s.setQuit b).down = s.down := rfl
@[simp] theorem State.setQuit_pressed (s : State) (b : Bool) : (s.setQuit b).pressed = s.pressed := rfl
@[simp] theorem State.setQuit_mx (s : State) (b : Bool) : (s.setQuit b).mx = s.mx := rfl
@[simp] theorem State.setQuit_my (s : State) (b : Bool) : (s.setQuit b).my = s.my := rfl
@[simp] theorem State.setQuit_text (s : State) (b : Bool) : (s.setQuit b).text = s.text := rfl
@[simp] theorem State.setQuit_seed (s : State) (b : Bool) : (s.setQuit b).seed = s.seed := rfl
@[simp] theorem State.setQuit_quit (s : State) (b : Bool) : (s.setQuit b).quit = b := rfl
@[simp] theorem State.setQuit_cbEn (s : State) (b : Bool) : (s.setQuit b).cbEn = s.cbEn := rfl
@[simp] theorem State.setQuit_err (s : State) (b : Bool) : (s.setQuit b).err = s.err := rfl
@[simp] theorem State.setQuit_errcmd (s : State) (b : Bool) : (s.setQuit b).errcmd = s.errcmd := rfl
@[simp] theorem State.setQuit_lastt (s : State) (b : Bool) : (s.setQuit b).lastt = s.lastt := rfl
@[simp] theorem State.setQuit_evq (s : State) (b : Bool) : (s.setQuit b).evq = s.evq := rfl
@[simp] theorem State.setQuit_opened (s : State) (b : Bool) : (s.setQuit b).opened = s.opened := rfl
@[simp] theorem State.setQuit_cmdPort (s : State) (b : Bool) : (s.setQuit b).cmdPort = s.cmdPort := rfl
@[simp] theorem State.setQuit_rspPort (s : State) (b : Bool) : (s.setQuit b).rspPort = s.rspPort := rfl
@[simp] theorem State.setQuit_dispPort (s : State) (b : Bool) : (s.setQuit b).dispPort = s.dispPort := rfl
@[simp] theorem State.setQuit_cbPort (s : State) (b : Bool) : (s.setQuit b).cbPort = s.cbPort := rfl
@[simp] theorem State.setQuit_now (s : State) (b : Bool) : (s.setQuit b).now = s.now := rfl
@[simp] theorem State.setQuit_devices (s : State) (b : Bool) : (s.setQuit b).devices = s.devices := rfl
@[simp] theorem State.setQuit_turns (s : State) (b : Bool) : (s.setQuit b).turns = s.turns := rfl
@[simp] theorem State.setQuit_draws (s : State) (b : Bool) : (s.setQuit b).draws = s.draws := rfl

/-! ### setCbEn -/

@[simp] theorem State.setCbEn_params (s : State) (b : Bool) : (s.setCbEn b).params = s.params := rfl
@[simp] theorem State.setCbEn_phase (s : State) (b : Bool) : (s.setCbEn b).phase = s.phase := rfl
@[simp] theorem State.setCbEn_w (s : State) (b : Bool) : (s.setCbEn b).w = s.w := rfl
@[simp] theorem State.setCbEn_h (s : State) (b : Bool) : (s.setCbEn b).h = s.h := rfl
@[simp] theorem State.setCbEn_fb (s : State) (b : Bool) : (s.setCbEn b).fb = s.fb := rfl
@[simp] theorem State.setCbEn_xl (s : State) (b : Bool) : (s.setCbEn b).xl = s.xl := rfl
@[simp] theorem State.setCbEn_yl (s : State) (b : Bool) : (s.setCbEn b).yl = s.yl := rfl
@[simp] theorem State.setCbEn_xh (s : State) (b : Bool) : (s.setCbEn b).xh = s.xh := rfl
@[simp] theorem State.setCbEn_yh (s : State) (b : Bool) : (s.setCbEn b).yh = s.yh := rfl
@[simp] theorem State.setCbEn_dx (s : State) (b : Bool) : (s.setCbEn b).dx = s.dx := rfl
@[simp] theorem State.setCbEn_dy (s : State) (b : Bool) : (s.setCbEn b).dy = s.dy := rfl
@[simp] theorem State.setCbEn_aspectEn (s : State) (b : Bool) : (s.setCbEn b).aspectEn = s.aspectEn := rfl
@[simp] theorem State.setCbEn_aspect (s : State) (b : Bool) : (s.setCbEn b).aspect = s.aspect := rfl
@[simp] theorem State.setCbEn_pal (s : State) (b : Bool) : (s.setCbEn b).pal = s.pal := rfl
@[simp] theorem State.setCbEn_glyph (s : State) (b : Bool) : (s.setCbEn b).glyph = s.glyph := rfl
@[simp] theorem State.setCbEn_down (s : State) (b : Bool) : (s.setCbEn b).down = s.down := rfl
@[simp] theorem State.setCbEn_pressed (s : State) (b : Bool) : (s.setCbEn b).pressed = s.pressed := rfl
@[simp] theorem State.setCbEn_mx (s : State) (b : Bool) : (s.setCbEn b).mx = s.mx := rfl
@[simp] theorem State.setCbEn_my (s : State) (b : Bool) : (s.setCbEn b).my = s.my := rfl
@[simp] theorem State.setCbEn_text (s : State) (b : Bool) : (s.setCbEn b).text = s.text := rfl
@[simp] theorem State.setCbEn_seed (s : State) (b : Bool) : (s.setCbEn b).seed = s.seed := rfl
@[simp] theorem State.setCbEn_quit (s : State) (b : Bool) : (s.setCbEn b).quit = s.quit := rfl
@[simp] theorem State.setCbEn_cbEn (s : State) (b : Bool) : (s.setCbEn b).cbEn = b := rfl
@[simp] theorem State.setCbEn_err (s : State) (b : Bool) : (s.setCbEn b).err = s.err := rfl
@[simp] theorem State.setCbEn_errcmd (s : State) (b : Bool) : (s.setCbEn b).errcmd = s.errcmd := rfl
@[simp] theorem State.setCbEn_lastt (s : State) (b : Bool) : (s.setCbEn b).lastt = s.lastt := rfl
@[simp] theorem State.setCbEn_evq (s : State) (b : Bool) : (s.setCbEn b).evq = s.evq := rfl
@[simp] theorem State.setCbEn_opened (s : State) (b : Bool) : (s.setCbEn b).opened = s.opened := rfl
@[simp] theorem State.setCbEn_cmdPort (s : State) (b : Bool) : (s.setCbEn b).cmdPort = s.cmdPort := rfl
@[simp] theorem State.setCbEn_rspPort (s : State) (b : Bool) : (s.setCbEn b).rspPort = s.rspPort := rfl
@[simp] theorem State.setCbEn_dispPort (s : State) (b : Bool) : (s.setCbEn b).dispPort = s.dispPort := rfl
@[simp] theorem State.setCbEn_cbPort (s : State) (b : Bool) : (s.setCbEn b).cbPort = s.cbPort := rfl
@[simp] theorem State.setCbEn_now (s : State) (b : Bool) : (s.setCbEn b).now = s.now := rfl
@[simp] theorem State.setCbEn_devices (s : State) (b : Bool) : (s.setCbEn b).devices = s.devices := rfl
@[simp] theorem State.setCbEn_turns (s : State) (b : Bool) : (s.setCbEn b).turns = s.turns := rfl
@[simp] theorem State.setCbEn_draws (s : State) (b : Bool) : (s.setCbEn b).draws = s.draws := rfl

/-! ### setErr -/

@[simp] theorem State.setErr_params (s : State) (e : Byte) (h : Word) : (s.setErr e h).params = s.params := rfl
@[simp] theorem State.setErr_phase (s : State) (e : Byte) (h : Word) : (s.setErr e h).phase = s.phase := rfl
@[simp] theorem State.setErr_w (s : State) (e : Byte) (h : Word) : (s.setErr e h).w = s.w := rfl
@[simp] theorem State.setErr_h (s : State) (e : Byte) (h : Word) : (s.setErr e h).h = s.h := rfl
@[simp] theorem State.setErr_fb (s : State) (e : Byte) (h : Word) : (s.setErr e h).fb = s.fb := rfl
@[simp] theorem State.setErr_xl (s : State) (e : Byte) (h : Word) : (s.setErr e h).xl = s.xl := rfl
@[simp] theorem State.setErr_yl (s : State) (e : Byte) (h : Word) : (s.setErr e h).yl = s.yl := rfl
@[simp] theorem State.setErr_xh (s : State) (e : Byte) (h : Word) : (s.setErr e h).xh = s.xh := rfl
@[simp] theorem State.setErr_yh (s : State) (e : Byte) (h : Word) : (s.setErr e h).yh = s.yh := rfl
@[simp] theorem State.setErr_dx (s : State) (e : Byte) (h : Word) : (s.setErr e h).dx = s.dx := rfl
@[simp] theorem State.setErr_dy (s : State) (e : Byte) (h : Word) : (s.setErr e h).dy = s.dy := rfl
@[simp] theorem State.setErr_aspectEn (s : State) (e : Byte) (h : Word) : (s.setErr e h).aspectEn = s.aspectEn := rfl
@[simp] theorem State.setErr_aspect (s : State) (e : Byte) (h : Word) : (s.setErr e h).aspect = s.aspect := rfl
@[simp] theorem State.setErr_pal (s : State) (e : Byte) (h : Word) : (s.setErr e h).pal = s.pal := rfl
@[simp] theorem State.setErr_glyph (s : State) (e : Byte) (h : Word) : (s.setErr e h).glyph = s.glyph := rfl
@[simp] theorem State.setErr_down (s : State) (e : Byte) (h : Word) : (s.setErr e h).down = s.down := rfl
@[simp] theorem State.setErr_pressed (s : State) (e : Byte) (h : Word) : (s.setErr e h).pressed = s.pressed := rfl
@[simp] theorem State.setErr_mx (s : State) (e : Byte) (h : Word) : (s.setErr e h).mx = s.mx := rfl
@[simp] theorem State.setErr_my (s : State) (e : Byte) (h : Word) : (s.setErr e h).my = s.my := rfl
@[simp] theorem State.setErr_text (s : State) (e : Byte) (h : Word) : (s.setErr e h).text = s.text := rfl
@[simp] theorem State.setErr_seed (s : State) (e : Byte) (h : Word) : (s.setErr e h).seed = s.seed := rfl
@[simp] theorem State.setErr_quit (s : State) (e : Byte) (h : Word) : (s.setErr e h).quit = s.quit := rfl
@[simp] theorem State.setErr_cbEn (s : State) (e : Byte) (h : Word) : (s.setErr e h).cbEn = s.cbEn := rfl
@[simp] theorem State.setErr_err (s : State) (e : Byte) (h : Word) : (s.setErr e h).err = e := rfl
@[simp] theorem State.setErr_errcmd (s : State) (e : Byte) (h : Word) : (s.setErr e h).errcmd = h := rfl
@[simp] theorem State.setErr_lastt (s : State) (e : Byte) (h : Word) : (s.setErr e h).lastt = s.lastt := rfl
@[simp] theorem State.setErr_evq (s : State) (e : Byte) (h : Word) : (s.setErr e h).evq = s.evq := rfl
@[simp] theorem State.setErr_opened (s : State) (e : Byte) (h : Word) : (s.setErr e h).opened = s.opened := rfl
@[simp] theorem State.setErr_cmdPort (s : State) (e : Byte) (h : Word) : (s.setErr e h).cmdPort = s.cmdPort := rfl
@[simp] theorem State.setErr_rspPort (s : State) (e : Byte) (h : Word) : (s.setErr e h).rspPort = s.rspPort := rfl
@[simp] theorem State.setErr_dispPort (s : State) (e : Byte) (h : Word) : (s.setErr e h).dispPort = s.dispPort := rfl
@[simp] theorem State.setErr_cbPort (s : State) (e : Byte) (h : Word) : (s.setErr e h).cbPort = s.cbPort := rfl
@[simp] theorem State.setErr_now (s : State) (e : Byte) (h : Word) : (s.setErr e h).now = s.now := rfl
@[simp] theorem State.setErr_devices (s : State) (e : Byte) (h : Word) : (s.setErr e h).devices = s.devices := rfl
@[simp] theorem State.setErr_turns (s : State) (e : Byte) (h : Word) : (s.setErr e h).turns = s.turns := rfl
@[simp] theorem State.setErr_draws (s : State) (e : Byte) (h : Word) : (s.setErr e h).draws = s.draws := rfl

/-! ### setLastt -/

@[simp] theorem State.setLastt_params (s : State) (t : BitVec 64) : (s.setLastt t).params = s.params := rfl
@[simp] theorem State.setLastt_phase (s : State) (t : BitVec 64) : (s.setLastt t).phase = s.phase := rfl
@[simp] theorem State.setLastt_w (s : State) (t : BitVec 64) : (s.setLastt t).w = s.w := rfl
@[simp] theorem State.setLastt_h (s : State) (t : BitVec 64) : (s.setLastt t).h = s.h := rfl
@[simp] theorem State.setLastt_fb (s : State) (t : BitVec 64) : (s.setLastt t).fb = s.fb := rfl
@[simp] theorem State.setLastt_xl (s : State) (t : BitVec 64) : (s.setLastt t).xl = s.xl := rfl
@[simp] theorem State.setLastt_yl (s : State) (t : BitVec 64) : (s.setLastt t).yl = s.yl := rfl
@[simp] theorem State.setLastt_xh (s : State) (t : BitVec 64) : (s.setLastt t).xh = s.xh := rfl
@[simp] theorem State.setLastt_yh (s : State) (t : BitVec 64) : (s.setLastt t).yh = s.yh := rfl
@[simp] theorem State.setLastt_dx (s : State) (t : BitVec 64) : (s.setLastt t).dx = s.dx := rfl
@[simp] theorem State.setLastt_dy (s : State) (t : BitVec 64) : (s.setLastt t).dy = s.dy := rfl
@[simp] theorem State.setLastt_aspectEn (s : State) (t : BitVec 64) : (s.setLastt t).aspectEn = s.aspectEn := rfl
@[simp] theorem State.setLastt_aspect (s : State) (t : BitVec 64) : (s.setLastt t).aspect = s.aspect := rfl
@[simp] theorem State.setLastt_pal (s : State) (t : BitVec 64) : (s.setLastt t).pal = s.pal := rfl
@[simp] theorem State.setLastt_glyph (s : State) (t : BitVec 64) : (s.setLastt t).glyph = s.glyph := rfl
@[simp] theorem State.setLastt_down (s : State) (t : BitVec 64) : (s.setLastt t).down = s.down := rfl
@[simp] theorem State.setLastt_pressed (s : State) (t : BitVec 64) : (s.setLastt t).pressed = s.pressed := rfl
@[simp] theorem State.setLastt_mx (s : State) (t : BitVec 64) : (s.setLastt t).mx = s.mx := rfl
@[simp] theorem State.setLastt_my (s : State) (t : BitVec 64) : (s.setLastt t).my = s.my := rfl
@[simp] theorem State.setLastt_text (s : State) (t : BitVec 64) : (s.setLastt t).text = s.text := rfl
@[simp] theorem State.setLastt_seed (s : State) (t : BitVec 64) : (s.setLastt t).seed = s.seed := rfl
@[simp] theorem State.setLastt_quit (s : State) (t : BitVec 64) : (s.setLastt t).quit = s.quit := rfl
@[simp] theorem State.setLastt_cbEn (s : State) (t : BitVec 64) : (s.setLastt t).cbEn = s.cbEn := rfl
@[simp] theorem State.setLastt_err (s : State) (t : BitVec 64) : (s.setLastt t).err = s.err := rfl
@[simp] theorem State.setLastt_errcmd (s : State) (t : BitVec 64) : (s.setLastt t).errcmd = s.errcmd := rfl
@[simp] theorem State.setLastt_lastt (s : State) (t : BitVec 64) : (s.setLastt t).lastt = t := rfl
@[simp] theorem State.setLastt_evq (s : State) (t : BitVec 64) : (s.setLastt t).evq = s.evq := rfl
@[simp] theorem State.setLastt_opened (s : State) (t : BitVec 64) : (s.setLastt t).opened = s.opened := rfl
@[simp] theorem State.setLastt_cmdPort (s : State) (t : BitVec 64) : (s.setLastt t).cmdPort = s.cmdPort := rfl
@[simp] theorem State.setLastt_rspPort (s : State) (t : BitVec 64) : (s.setLastt t).rspPort = s.rspPort := rfl
@[simp] theorem State.setLastt_dispPort (s : State) (t : BitVec 64) : (s.setLastt t).dispPort = s.dispPort := rfl
@[simp] theorem State.setLastt_cbPort (s : State) (t : BitVec 64) : (s.setLastt t).cbPort = s.cbPort := rfl
@[simp] theorem State.setLastt_now (s : State) (t : BitVec 64) : (s.setLastt t).now = s.now := rfl
@[simp] theorem State.setLastt_devices (s : State) (t : BitVec 64) : (s.setLastt t).devices = s.devices := rfl
@[simp] theorem State.setLastt_turns (s : State) (t : BitVec 64) : (s.setLastt t).turns = s.turns := rfl
@[simp] theorem State.setLastt_draws (s : State) (t : BitVec 64) : (s.setLastt t).draws = s.draws := rfl

/-! ### setEvq -/

@[simp] theorem State.setEvq_params (s : State) (q : List EventRec) : (s.setEvq q).params = s.params := rfl
@[simp] theorem State.setEvq_phase (s : State) (q : List EventRec) : (s.setEvq q).phase = s.phase := rfl
@[simp] theorem State.setEvq_w (s : State) (q : List EventRec) : (s.setEvq q).w = s.w := rfl
@[simp] theorem State.setEvq_h (s : State) (q : List EventRec) : (s.setEvq q).h = s.h := rfl
@[simp] theorem State.setEvq_fb (s : State) (q : List EventRec) : (s.setEvq q).fb = s.fb := rfl
@[simp] theorem State.setEvq_xl (s : State) (q : List EventRec) : (s.setEvq q).xl = s.xl := rfl
@[simp] theorem State.setEvq_yl (s : State) (q : List EventRec) : (s.setEvq q).yl = s.yl := rfl
@[simp] theorem State.setEvq_xh (s : State) (q : List EventRec) : (s.setEvq q).xh = s.xh := rfl
@[simp] theorem State.setEvq_yh (s : State) (q : List EventRec) : (s.setEvq q).yh = s.yh := rfl
@[simp] theorem State.setEvq_dx (s : State) (q : List EventRec) : (s.setEvq q).dx = s.dx := rfl
@[simp] theorem State.setEvq_dy (s : State) (q : List EventRec) : (s.setEvq q).dy = s.dy := rfl
@[simp] theorem State.setEvq_aspectEn (s : State) (q : List EventRec) : (s.setEvq q).aspectEn = s.aspectEn := rfl
@[simp] theorem State.setEvq_aspect (s : State) (q : List EventRec) : (s.setEvq q).aspect = s.aspect := rfl
@[simp] theorem State.setEvq_pal (s : State) (q : List EventRec) : (s.setEvq q).pal = s.pal := rfl
@[simp] theorem State.setEvq_glyph (s : State) (q : List EventRec) : (s.setEvq q).glyph = s.glyph := rfl
@[simp] theorem State.setEvq_down (s : State) (q : List EventRec) : (s.setEvq q).down = s.down := rfl
@[simp] theorem State.setEvq_pressed (s : State) (q : List EventRec) : (s.setEvq q).pressed = s.pressed := rfl
@[simp] theorem State.setEvq_mx (s : State) (q : List EventRec) : (s.setEvq q).mx = s.mx := rfl
@[simp] theorem State.setEvq_my (s : State) (q : List EventRec) : (s.setEvq q).my = s.my := rfl
@[simp] theorem State.setEvq_text (s : State) (q : List EventRec) : (s.setEvq q).text = s.text := rfl
@[simp] theorem State.setEvq_seed (s : State) (q : List EventRec) : (s.setEvq q).seed = s.seed := rfl
@[simp] theorem State.setEvq_quit (s : State) (q : List EventRec) : (s.setEvq q).quit = s.quit := rfl
@[simp] theorem State.setEvq_cbEn (s : State) (q : List EventRec) : (s.setEvq q).cbEn = s.cbEn := rfl
@[simp] theorem State.setEvq_err (s : State) (q : List EventRec) : (s.setEvq q).err = s.err := rfl
@[simp] theorem State.setEvq_errcmd (s : State) (q : List EventRec) : (s.setEvq q).errcmd = s.errcmd := rfl
@[simp] theorem State.setEvq_lastt (s : State) (q : List EventRec) : (s.setEvq q).lastt = s.lastt := rfl
@[simp] theorem State.setEvq_evq (s : State) (q : List EventRec) : (s.setEvq q).evq = q := rfl
@[simp] theorem State.setEvq_opened (s : State) (q : List EventRec) : (s.setEvq q).opened = s.opened := rfl
@[simp] theorem State.setEvq_cmdPort (s : State) (q : List EventRec) : (s.setEvq q).cmdPort = s.cmdPort := rfl
@[simp] theorem State.setEvq_rspPort (s : State) (q : List EventRec) : (s.setEvq q).rspPort = s.rspPort := rfl
@[simp] theorem State.setEvq_dispPort (s : State) (q : List EventRec) : (s.setEvq q).dispPort = s.dispPort := rfl
@[simp] theorem State.setEvq_cbPort (s : State) (q : List EventRec) : (s.setEvq q).cbPort = s.cbPort := rfl
@[simp] theorem State.setEvq_now (s : State) (q : List EventRec) : (s.setEvq q).now = s.now := rfl
@[simp] theorem State.setEvq_devices (s : State) (q : List EventRec) : (s.setEvq q).devices = s.devices := rfl
@[simp] theorem State.setEvq_turns (s : State) (q : List EventRec) : (s.setEvq q).turns = s.turns := rfl
@[simp] theorem State.setEvq_draws (s : State) (q : List EventRec) : (s.setEvq q).draws = s.draws := rfl

/-! ### setOpened -/

@[simp] theorem State.setOpened_params (s : State) (ids : List Word) : (s.setOpened ids).params = s.params := rfl
@[simp] theorem State.setOpened_phase (s : State) (ids : List Word) : (s.setOpened ids).phase = s.phase := rfl
@[simp] theorem State.setOpened_w (s : State) (ids : List Word) : (s.setOpened ids).w = s.w := rfl
@[simp] theorem State.setOpened_h (s : State) (ids : List Word) : (s.setOpened ids).h = s.h := rfl
@[simp] theorem State.setOpened_fb (s : State) (ids : List Word) : (s.setOpened ids).fb = s.fb := rfl
@[simp] theorem State.setOpened_xl (s : State) (ids : List Word) : (s.setOpened ids).xl = s.xl := rfl
@[simp] theorem State.setOpened_yl (s : State) (ids : List Word) : (s.setOpened ids).yl = s.yl := rfl
@[simp] theorem State.setOpened_xh (s : State) (ids : List Word) : (s.setOpened ids).xh = s.xh := rfl
@[simp] theorem State.setOpened_yh (s : State) (ids : List Word) : (s.setOpened ids).yh = s.yh := rfl
@[simp] theorem State.setOpened_dx (s : State) (ids : List Word) : (s.setOpened ids).dx = s.dx := rfl
@[simp] theorem State.setOpened_dy (s : State) (ids : List Word) : (s.setOpened ids).dy = s.dy := rfl
@[simp] theorem State.setOpened_aspectEn (s : State) (ids : List Word) : (s.setOpened ids).aspectEn = s.aspectEn := rfl
@[simp] theorem State.setOpened_aspect (s : State) (ids : List Word) : (s.setOpened ids).aspect = s.aspect := rfl
@[simp] theorem State.setOpened_pal (s : State) (ids : List Word) : (s.setOpened ids).pal = s.pal := rfl
@[simp] theorem State.setOpened_glyph (s : State) (ids : List Word) : (s.setOpened ids).glyph = s.glyph := rfl
@[simp] theorem State.setOpened_down (s : State) (ids : List Word) : (s.setOpened ids).down = s.down := rfl
@[simp] theorem State.setOpened_pressed (s : State) (ids : List Word) : (s.setOpened ids).pressed = s.pressed := rfl
@[simp] theorem State.setOpened_mx (s : State) (ids : List Word) : (s.setOpened ids).mx = s.mx := rfl
@[simp] theorem State.setOpened_my (s : State) (ids : List Word) : (s.setOpened ids).my = s.my := rfl
@[simp] theorem State.setOpened_text (s : State) (ids : List Word) : (s.setOpened ids).text = s.text := rfl
@[simp] theorem State.setOpened_seed (s : State) (ids : List Word) : (s.setOpened ids).seed = s.seed := rfl
@[simp] theorem State.setOpened_quit (s : State) (ids : List Word) : (s.setOpened ids).quit = s.quit := rfl
@[simp] theorem State.setOpened_cbEn (s : State) (ids : List Word) : (s.setOpened ids).cbEn = s.cbEn := rfl
@[simp] theorem State.setOpened_err (s : State) (ids : List Word) : (s.setOpened ids).err = s.err := rfl
@[simp] theorem State.setOpened_errcmd (s : State) (ids : List Word) : (s.setOpened ids).errcmd = s.errcmd := rfl
@[simp] theorem State.setOpened_lastt (s : State) (ids : List Word) : (s.setOpened ids).lastt = s.lastt := rfl
@[simp] theorem State.setOpened_evq (s : State) (ids : List Word) : (s.setOpened ids).evq = s.evq := rfl
@[simp] theorem State.setOpened_opened (s : State) (ids : List Word) : (s.setOpened ids).opened = ids := rfl
@[simp] theorem State.setOpened_cmdPort (s : State) (ids : List Word) : (s.setOpened ids).cmdPort = s.cmdPort := rfl
@[simp] theorem State.setOpened_rspPort (s : State) (ids : List Word) : (s.setOpened ids).rspPort = s.rspPort := rfl
@[simp] theorem State.setOpened_dispPort (s : State) (ids : List Word) : (s.setOpened ids).dispPort = s.dispPort := rfl
@[simp] theorem State.setOpened_cbPort (s : State) (ids : List Word) : (s.setOpened ids).cbPort = s.cbPort := rfl
@[simp] theorem State.setOpened_now (s : State) (ids : List Word) : (s.setOpened ids).now = s.now := rfl
@[simp] theorem State.setOpened_devices (s : State) (ids : List Word) : (s.setOpened ids).devices = s.devices := rfl
@[simp] theorem State.setOpened_turns (s : State) (ids : List Word) : (s.setOpened ids).turns = s.turns := rfl
@[simp] theorem State.setOpened_draws (s : State) (ids : List Word) : (s.setOpened ids).draws = s.draws := rfl

/-! ### setCmdPort -/

@[simp] theorem State.setCmdPort_params (s : State) (ws : List Word) : (s.setCmdPort ws).params = s.params := rfl
@[simp] theorem State.setCmdPort_phase (s : State) (ws : List Word) : (s.setCmdPort ws).phase = s.phase := rfl
@[simp] theorem State.setCmdPort_w (s : State) (ws : List Word) : (s.setCmdPort ws).w = s.w := rfl
@[simp] theorem State.setCmdPort_h (s : State) (ws : List Word) : (s.setCmdPort ws).h = s.h := rfl
@[simp] theorem State.setCmdPort_fb (s : State) (ws : List Word) : (s.setCmdPort ws).fb = s.fb := rfl
@[simp] theorem State.setCmdPort_xl (s : State) (ws : List Word) : (s.setCmdPort ws).xl = s.xl := rfl
@[simp] theorem State.setCmdPort_yl (s : State) (ws : List Word) : (s.setCmdPort ws).yl = s.yl := rfl
@[simp] theorem State.setCmdPort_xh (s : State) (ws : List Word) : (s.setCmdPort ws).xh = s.xh := rfl
@[simp] theorem State.setCmdPort_yh (s : State) (ws : List Word) : (s.setCmdPort ws).yh = s.yh := rfl
@[simp] theorem State.setCmdPort_dx (s : State) (ws : List Word) : (s.setCmdPort ws).dx = s.dx := rfl
@[simp] theorem State.setCmdPort_dy (s : State) (ws : List Word) : (s.setCmdPort ws).dy = s.dy := rfl
@[simp] theorem State.setCmdPort_aspectEn (s : State) (ws : List Word) : (s.setCmdPort ws).aspectEn = s.aspectEn := rfl
@[simp] theorem State.setCmdPort_aspect (s : State) (ws : List Word) : (s.setCmdPort ws).aspect = s.aspect := rfl
@[simp] theorem State.setCmdPort_pal (s : State) (ws : List Word) : (s.setCmdPort ws).pal = s.pal := rfl
@[simp] theorem State.setCmdPort_glyph (s : State) (ws : List Word) : (s.setCmdPort ws).glyph = s.glyph := rfl
@[simp] theorem State.setCmdPort_down (s : State) (ws : List Word) : (s.setCmdPort ws).down = s.down := rfl
@[simp] theorem State.setCmdPort_pressed (s : State) (ws : List Word) : (s.setCmdPort ws).pressed = s.pressed := rfl
@[simp] theorem State.setCmdPort_mx (s : State) (ws : List Word) : (s.setCmdPort ws).mx = s.mx := rfl
@[simp] theorem State.setCmdPort_my (s : State) (ws : List Word) : (s.setCmdPort ws).my = s.my := rfl
@[simp] theorem State.setCmdPort_text (s : State) (ws : List Word) : (s.setCmdPort ws).text = s.text := rfl
@[simp] theorem State.setCmdPort_seed (s : State) (ws : List Word) : (s.setCmdPort ws).seed = s.seed := rfl
@[simp] theorem State.setCmdPort_quit (s : State) (ws : List Word) : (s.setCmdPort ws).quit = s.quit := rfl
@[simp] theorem State.setCmdPort_cbEn (s : State) (ws : List Word) : (s.setCmdPort ws).cbEn = s.cbEn := rfl
@[simp] theorem State.setCmdPort_err (s : State) (ws : List Word) : (s.setCmdPort ws).err = s.err := rfl
@[simp] theorem State.setCmdPort_errcmd (s : State) (ws : List Word) : (s.setCmdPort ws).errcmd = s.errcmd := rfl
@[simp] theorem State.setCmdPort_lastt (s : State) (ws : List Word) : (s.setCmdPort ws).lastt = s.lastt := rfl
@[simp] theorem State.setCmdPort_evq (s : State) (ws : List Word) : (s.setCmdPort ws).evq = s.evq := rfl
@[simp] theorem State.setCmdPort_opened (s : State) (ws : List Word) : (s.setCmdPort ws).opened = s.opened := rfl
@[simp] theorem State.setCmdPort_cmdPort (s : State) (ws : List Word) : (s.setCmdPort ws).cmdPort = ws := rfl
@[simp] theorem State.setCmdPort_rspPort (s : State) (ws : List Word) : (s.setCmdPort ws).rspPort = s.rspPort := rfl
@[simp] theorem State.setCmdPort_dispPort (s : State) (ws : List Word) : (s.setCmdPort ws).dispPort = s.dispPort := rfl
@[simp] theorem State.setCmdPort_cbPort (s : State) (ws : List Word) : (s.setCmdPort ws).cbPort = s.cbPort := rfl
@[simp] theorem State.setCmdPort_now (s : State) (ws : List Word) : (s.setCmdPort ws).now = s.now := rfl
@[simp] theorem State.setCmdPort_devices (s : State) (ws : List Word) : (s.setCmdPort ws).devices = s.devices := rfl
@[simp] theorem State.setCmdPort_turns (s : State) (ws : List Word) : (s.setCmdPort ws).turns = s.turns := rfl
@[simp] theorem State.setCmdPort_draws (s : State) (ws : List Word) : (s.setCmdPort ws).draws = s.draws := rfl

/-! ### setNow -/

@[simp] theorem State.setNow_params (s : State) (t : BitVec 64) : (s.setNow t).params = s.params := rfl
@[simp] theorem State.setNow_phase (s : State) (t : BitVec 64) : (s.setNow t).phase = s.phase := rfl
@[simp] theorem State.setNow_w (s : State) (t : BitVec 64) : (s.setNow t).w = s.w := rfl
@[simp] theorem State.setNow_h (s : State) (t : BitVec 64) : (s.setNow t).h = s.h := rfl
@[simp] theorem State.setNow_fb (s : State) (t : BitVec 64) : (s.setNow t).fb = s.fb := rfl
@[simp] theorem State.setNow_xl (s : State) (t : BitVec 64) : (s.setNow t).xl = s.xl := rfl
@[simp] theorem State.setNow_yl (s : State) (t : BitVec 64) : (s.setNow t).yl = s.yl := rfl
@[simp] theorem State.setNow_xh (s : State) (t : BitVec 64) : (s.setNow t).xh = s.xh := rfl
@[simp] theorem State.setNow_yh (s : State) (t : BitVec 64) : (s.setNow t).yh = s.yh := rfl
@[simp] theorem State.setNow_dx (s : State) (t : BitVec 64) : (s.setNow t).dx = s.dx := rfl
@[simp] theorem State.setNow_dy (s : State) (t : BitVec 64) : (s.setNow t).dy = s.dy := rfl
@[simp] theorem State.setNow_aspectEn (s : State) (t : BitVec 64) : (s.setNow t).aspectEn = s.aspectEn := rfl
@[simp] theorem State.setNow_aspect (s : State) (t : BitVec 64) : (s.setNow t).aspect = s.aspect := rfl
@[simp] theorem State.setNow_pal (s : State) (t : BitVec 64) : (s.setNow t).pal = s.pal := rfl
@[simp] theorem State.setNow_glyph (s : State) (t : BitVec 64) : (s.setNow t).glyph = s.glyph := rfl
@[simp] theorem State.setNow_down (s : State) (t : BitVec 64) : (s.setNow t).down = s.down := rfl
@[simp] theorem State.setNow_pressed (s : State) (t : BitVec 64) : (s.setNow t).pressed = s.pressed := rfl
@[simp] theorem State.setNow_mx (s : State) (t : BitVec 64) : (s.setNow t).mx = s.mx := rfl
@[simp] theorem State.setNow_my (s : State) (t : BitVec 64) : (s.setNow t).my = s.my := rfl
@[simp] theorem State.setNow_text (s : State) (t : BitVec 64) : (s.setNow t).text = s.text := rfl
@[simp] theorem State.setNow_seed (s : State) (t : BitVec 64) : (s.setNow t).seed = s.seed := rfl
@[simp] theorem State.setNow_quit (s : State) (t : BitVec 64) : (s.setNow t).quit = s.quit := rfl
@[simp] theorem State.setNow_cbEn (s : State) (t : BitVec 64) : (s.setNow t).cbEn = s.cbEn := rfl
@[simp] theorem State.setNow_err (s : State) (t : BitVec 64) : (s.setNow t).err = s.err := rfl
@[simp] theorem State.setNow_errcmd (s : State) (t : BitVec 64) : (s.setNow t).errcmd = s.errcmd := rfl
@[simp] theorem State.setNow_lastt (s : State) (t : BitVec 64) : (s.setNow t).lastt = s.lastt := rfl
@[simp] theorem State.setNow_evq (s : State) (t : BitVec 64) : (s.setNow t).evq = s.evq := rfl
@[simp] theorem State.setNow_opened (s : State) (t : BitVec 64) : (s.setNow t).opened = s.opened := rfl
@[simp] theorem State.setNow_cmdPort (s : State) (t : BitVec 64) : (s.setNow t).cmdPort = s.cmdPort := rfl
@[simp] theorem State.setNow_rspPort (s : State) (t : BitVec 64) : (s.setNow t).rspPort = s.rspPort := rfl
@[simp] theorem State.setNow_dispPort (s : State) (t : BitVec 64) : (s.setNow t).dispPort = s.dispPort := rfl
@[simp] theorem State.setNow_cbPort (s : State) (t : BitVec 64) : (s.setNow t).cbPort = s.cbPort := rfl
@[simp] theorem State.setNow_now (s : State) (t : BitVec 64) : (s.setNow t).now = t := rfl
@[simp] theorem State.setNow_devices (s : State) (t : BitVec 64) : (s.setNow t).devices = s.devices := rfl
@[simp] theorem State.setNow_turns (s : State) (t : BitVec 64) : (s.setNow t).turns = s.turns := rfl
@[simp] theorem State.setNow_draws (s : State) (t : BitVec 64) : (s.setNow t).draws = s.draws := rfl

/-! ### setDevices -/

@[simp] theorem State.setDevices_params (s : State) (ids : List Word) : (s.setDevices ids).params = s.params := rfl
@[simp] theorem State.setDevices_phase (s : State) (ids : List Word) : (s.setDevices ids).phase = s.phase := rfl
@[simp] theorem State.setDevices_w (s : State) (ids : List Word) : (s.setDevices ids).w = s.w := rfl
@[simp] theorem State.setDevices_h (s : State) (ids : List Word) : (s.setDevices ids).h = s.h := rfl
@[simp] theorem State.setDevices_fb (s : State) (ids : List Word) : (s.setDevices ids).fb = s.fb := rfl
@[simp] theorem State.setDevices_xl (s : State) (ids : List Word) : (s.setDevices ids).xl = s.xl := rfl
@[simp] theorem State.setDevices_yl (s : State) (ids : List Word) : (s.setDevices ids).yl = s.yl := rfl
@[simp] theorem State.setDevices_xh (s : State) (ids : List Word) : (s.setDevices ids).xh = s.xh := rfl
@[simp] theorem State.setDevices_yh (s : State) (ids : List Word) : (s.setDevices ids).yh = s.yh := rfl
@[simp] theorem State.setDevices_dx (s : State) (ids : List Word) : (s.setDevices ids).dx = s.dx := rfl
@[simp] theorem State.setDevices_dy (s : State) (ids : List Word) : (s.setDevices ids).dy = s.dy := rfl
@[simp] theorem State.setDevices_aspectEn (s : State) (ids : List Word) : (s.setDevices ids).aspectEn = s.aspectEn := rfl
@[simp] theorem State.setDevices_aspect (s : State) (ids : List Word) : (s.setDevices ids).aspect = s.aspect := rfl
@[simp] theorem State.setDevices_pal (s : State) (ids : List Word) : (s.setDevices ids).pal = s.pal := rfl
@[simp] theorem State.setDevices_glyph (s : State) (ids : List Word) : (s.setDevices ids).glyph = s.glyph := rfl
@[simp] theorem State.setDevices_down (s : State) (ids : List Word) : (s.setDevices ids).down = s.down := rfl
@[simp] theorem State.setDevices_pressed (s : State) (ids : List Word) : (s.setDevices ids).pressed = s.pressed := rfl
@[simp] theorem State.setDevices_mx (s : State) (ids : List Word) : (s.setDevices ids).mx = s.mx := rfl
@[simp] theorem State.setDevices_my (s : State) (ids : List Word) : (s.setDevices ids).my = s.my := rfl
@[simp] theorem State.setDevices_text (s : State) (ids : List Word) : (s.setDevices ids).text = s.text := rfl
@[simp] theorem State.setDevices_seed (s : State) (ids : List Word) : (s.setDevices ids).seed = s.seed := rfl
@[simp] theorem State.setDevices_quit (s : State) (ids : List Word) : (s.setDevices ids).quit = s.quit := rfl
@[simp] theorem State.setDevices_cbEn (s : State) (ids : List Word) : (s.setDevices ids).cbEn = s.cbEn := rfl
@[simp] theorem State.setDevices_err (s : State) (ids : List Word) : (s.setDevices ids).err = s.err := rfl
@[simp] theorem State.setDevices_errcmd (s : State) (ids : List Word) : (s.setDevices ids).errcmd = s.errcmd := rfl
@[simp] theorem State.setDevices_lastt (s : State) (ids : List Word) : (s.setDevices ids).lastt = s.lastt := rfl
@[simp] theorem State.setDevices_evq (s : State) (ids : List Word) : (s.setDevices ids).evq = s.evq := rfl
@[simp] theorem State.setDevices_opened (s : State) (ids : List Word) : (s.setDevices ids).opened = s.opened := rfl
@[simp] theorem State.setDevices_cmdPort (s : State) (ids : List Word) : (s.setDevices ids).cmdPort = s.cmdPort := rfl
@[simp] theorem State.setDevices_rspPort (s : State) (ids : List Word) : (s.setDevices ids).rspPort = s.rspPort := rfl
@[simp] theorem State.setDevices_dispPort (s : State) (ids : List Word) : (s.setDevices ids).dispPort = s.dispPort := rfl
@[simp] theorem State.setDevices_cbPort (s : State) (ids : List Word) : (s.setDevices ids).cbPort = s.cbPort := rfl
@[simp] theorem State.setDevices_now (s : State) (ids : List Word) : (s.setDevices ids).now = s.now := rfl
@[simp] theorem State.setDevices_devices (s : State) (ids : List Word) : (s.setDevices ids).devices = ids := rfl
@[simp] theorem State.setDevices_turns (s : State) (ids : List Word) : (s.setDevices ids).turns = s.turns := rfl
@[simp] theorem State.setDevices_draws (s : State) (ids : List Word) : (s.setDevices ids).draws = s.draws := rfl

/-! ### setTurns -/

@[simp] theorem State.setTurns_params (s : State) (ts : List Turn) : (s.setTurns ts).params = s.params := rfl
@[simp] theorem State.setTurns_phase (s : State) (ts : List Turn) : (s.setTurns ts).phase = s.phase := rfl
@[simp] theorem State.setTurns_w (s : State) (ts : List Turn) : (s.setTurns ts).w = s.w := rfl
@[simp] theorem State.setTurns_h (s : State) (ts : List Turn) : (s.setTurns ts).h = s.h := rfl
@[simp] theorem State.setTurns_fb (s : State) (ts : List Turn) : (s.setTurns ts).fb = s.fb := rfl
@[simp] theorem State.setTurns_xl (s : State) (ts : List Turn) : (s.setTurns ts).xl = s.xl := rfl
@[simp] theorem State.setTurns_yl (s : State) (ts : List Turn) : (s.setTurns ts).yl = s.yl := rfl
@[simp] theorem State.setTurns_xh (s : State) (ts : List Turn) : (s.setTurns ts).xh = s.xh := rfl
@[simp] theorem State.setTurns_yh (s : State) (ts : List Turn) : (s.setTurns ts).yh = s.yh := rfl
@[simp] theorem State.setTurns_dx (s : State) (ts : List Turn) : (s.setTurns ts).dx = s.dx := rfl
@[simp] theorem State.setTurns_dy (s : State) (ts : List Turn) : (s.setTurns ts).dy = s.dy := rfl
@[simp] theorem State.setTurns_aspectEn (s : State) (ts : List Turn) : (s.setTurns ts).aspectEn = s.aspectEn := rfl
@[simp] theorem State.setTurns_aspect (s : State) (ts : List Turn) : (s.setTurns ts).aspect = s.aspect := rfl
@[simp] theorem State.setTurns_pal (s : State) (ts : List Turn) : (s.setTurns ts).pal = s.pal := rfl
@[simp] theorem State.setTurns_glyph (s : State) (ts : List Turn) : (s.setTurns ts).glyph = s.glyph := rfl
@[simp] theorem State.setTurns_down (s : State) (ts : List Turn) : (s.setTurns ts).down = s.down := rfl
@[simp] theorem State.setTurns_pressed (s : State) (ts : List Turn) : (s.setTurns ts).pressed = s.pressed := rfl
@[simp] theorem State.setTurns_mx (s : State) (ts : List Turn) : (s.setTurns ts).mx = s.mx := rfl
@[simp] theorem State.setTurns_my (s : State) (ts : List Turn) : (s.setTurns ts).my = s.my := rfl
@[simp] theorem State.setTurns_text (s : State) (ts : List Turn) : (s.setTurns ts).text = s.text := rfl
@[simp] theorem State.setTurns_seed (s : State) (ts : List Turn) : (s.setTurns ts).seed = s.seed := rfl
@[simp] theorem State.setTurns_quit (s : State) (ts : List Turn) : (s.setTurns ts).quit = s.quit := rfl
@[simp] theorem State.setTurns_cbEn (s : State) (ts : List Turn) : (s.setTurns ts).cbEn = s.cbEn := rfl
@[simp] theorem State.setTurns_err (s : State) (ts : List Turn) : (s.setTurns ts).err = s.err := rfl
@[simp] theorem State.setTurns_errcmd (s : State) (ts : List Turn) : (s.setTurns ts).errcmd = s.errcmd := rfl
@[simp] theorem State.setTurns_lastt (s : State) (ts : List Turn) : (s.setTurns ts).lastt = s.lastt := rfl
@[simp] theorem State.setTurns_evq (s : State) (ts : List Turn) : (s.setTurns ts).evq = s.evq := rfl
@[simp] theorem State.setTurns_opened (s : State) (ts : List Turn) : (s.setTurns ts).opened = s.opened := rfl
@[simp] theorem State.setTurns_cmdPort (s : State) (ts : List Turn) : (s.setTurns ts).cmdPort = s.cmdPort := rfl
@[simp] theorem State.setTurns_rspPort (s : State) (ts : List Turn) : (s.setTurns ts).rspPort = s.rspPort := rfl
@[simp] theorem State.setTurns_dispPort (s : State) (ts : List Turn) : (s.setTurns ts).dispPort = s.dispPort := rfl
@[simp] theorem State.setTurns_cbPort (s : State) (ts : List Turn) : (s.setTurns ts).cbPort = s.cbPort := rfl
@[simp] theorem State.setTurns_now (s : State) (ts : List Turn) : (s.setTurns ts).now = s.now := rfl
@[simp] theorem State.setTurns_devices (s : State) (ts : List Turn) : (s.setTurns ts).devices = s.devices := rfl
@[simp] theorem State.setTurns_turns (s : State) (ts : List Turn) : (s.setTurns ts).turns = ts := rfl
@[simp] theorem State.setTurns_draws (s : State) (ts : List Turn) : (s.setTurns ts).draws = s.draws := rfl

/-! ### newGrid -/

@[simp] theorem State.newGrid_params (s : State) (w h : BitVec 16) : (s.newGrid w h).params = s.params := rfl
@[simp] theorem State.newGrid_phase (s : State) (w h : BitVec 16) : (s.newGrid w h).phase = s.phase := rfl
@[simp] theorem State.newGrid_w (s : State) (w h : BitVec 16) : (s.newGrid w h).w = w := rfl
@[simp] theorem State.newGrid_h (s : State) (w h : BitVec 16) : (s.newGrid w h).h = h := rfl
@[simp] theorem State.newGrid_fb (s : State) (w h : BitVec 16) : (s.newGrid w h).fb = [] := rfl
@[simp] theorem State.newGrid_xl (s : State) (w h : BitVec 16) : (s.newGrid w h).xl = s.xl := rfl
@[simp] theorem State.newGrid_yl (s : State) (w h : BitVec 16) : (s.newGrid w h).yl = s.yl := rfl
@[simp] theorem State.newGrid_xh (s : State) (w h : BitVec 16) : (s.newGrid w h).xh = s.xh := rfl
@[simp] theorem State.newGrid_yh (s : State) (w h : BitVec 16) : (s.newGrid w h).yh = s.yh := rfl
@[simp] theorem State.newGrid_dx (s : State) (w h : BitVec 16) : (s.newGrid w h).dx = s.dx := rfl
@[simp] theorem State.newGrid_dy (s : State) (w h : BitVec 16) : (s.newGrid w h).dy = s.dy := rfl
@[simp] theorem State.newGrid_aspectEn (s : State) (w h : BitVec 16) : (s.newGrid w h).aspectEn = s.aspectEn := rfl
@[simp] theorem State.newGrid_aspect (s : State) (w h : BitVec 16) : (s.newGrid w h).aspect = s.aspect := rfl
@[simp] theorem State.newGrid_pal (s : State) (w h : BitVec 16) : (s.newGrid w h).pal = s.pal := rfl
@[simp] theorem State.newGrid_glyph (s : State) (w h : BitVec 16) : (s.newGrid w h).glyph = s.glyph := rfl
@[simp] theorem State.newGrid_down (s : State) (w h : BitVec 16) : (s.newGrid w h).down = s.down := rfl
@[simp] theorem State.newGrid_pressed (s : State) (w h : BitVec 16) : (s.newGrid w h).pressed = s.pressed := rfl
@[simp] theorem State.newGrid_mx (s : State) (w h : BitVec 16) : (s.newGrid w h).mx = s.mx := rfl
@[simp] theorem State.newGrid_my (s : State) (w h : BitVec 16) : (s.newGrid w h).my = s.my := rfl
@[simp] theorem State.newGrid_text (s : State) (w h : BitVec 16) : (s.newGrid w h).text = s.text := rfl
@[simp] theorem State.newGrid_seed (s : State) (w h : BitVec 16) : (s.newGrid w h).seed = s.seed := rfl
@[simp] theorem State.newGrid_quit (s : State) (w h : BitVec 16) : (s.newGrid w h).quit = s.quit := rfl
@[simp] theorem State.newGrid_cbEn (s : State) (w h : BitVec 16) : (s.newGrid w h).cbEn = s.cbEn := rfl
@[simp] theorem State.newGrid_err (s : State) (w h : BitVec 16) : (s.newGrid w h).err = s.err := rfl
@[simp] theorem State.newGrid_errcmd (s : State) (w h : BitVec 16) : (s.newGrid w h).errcmd = s.errcmd := rfl
@[simp] theorem State.newGrid_lastt (s : State) (w h : BitVec 16) : (s.newGrid w h).lastt = s.lastt := rfl
@[simp] theorem State.newGrid_evq (s : State) (w h : BitVec 16) : (s.newGrid w h).evq = s.evq := rfl
@[simp] theorem State.newGrid_opened (s : State) (w h : BitVec 16) : (s.newGrid w h).opened = s.opened := rfl
@[simp] theorem State.newGrid_cmdPort (s : State) (w h : BitVec 16) : (s.newGrid w h).cmdPort = s.cmdPort := rfl
@[simp] theorem State.newGrid_rspPort (s : State) (w h : BitVec 16) : (s.newGrid w h).rspPort = s.rspPort := rfl
@[simp] theorem State.newGrid_dispPort (s : State) (w h : BitVec 16) : (s.newGrid w h).dispPort = s.dispPort := rfl
@[simp] theorem State.newGrid_cbPort (s : State) (w h : BitVec 16) : (s.newGrid w h).cbPort = s.cbPort := rfl
@[simp] theorem State.newGrid_now (s : State) (w h : BitVec 16) : (s.newGrid w h).now = s.now := rfl
@[simp] theorem State.newGrid_devices (s : State) (w h : BitVec 16) : (s.newGrid w h).devices = s.devices := rfl
@[simp] theorem State.newGrid_turns (s : State) (w h : BitVec 16) : (s.newGrid w h).turns = s.turns := rfl
@[simp] theorem State.newGrid_draws (s : State) (w h : BitVec 16) : (s.newGrid w h).draws = s.draws + 1 := rfl

/-! ### sendResponse -/

@[simp] theorem State.sendResponse_params (s : State) (r : Response) : (s.sendResponse r).params = s.params := rfl
@[simp] theorem State.sendResponse_phase (s : State) (r : Response) : (s.sendResponse r).phase = s.phase := rfl
@[simp] theorem State.sendResponse_w (s : State) (r : Response) : (s.sendResponse r).w = s.w := rfl
@[simp] theorem State.sendResponse_h (s : State) (r : Response) : (s.sendResponse r).h = s.h := rfl
@[simp] theorem State.sendResponse_fb (s : State) (r : Response) : (s.sendResponse r).fb = s.fb := rfl
@[simp] theorem State.sendResponse_xl (s : State) (r : Response) : (s.sendResponse r).xl = s.xl := rfl
@[simp] theorem State.sendResponse_yl (s : State) (r : Response) : (s.sendResponse r).yl = s.yl := rfl
@[simp] theorem State.sendResponse_xh (s : State) (r : Response) : (s.sendResponse r).xh = s.xh := rfl
@[simp] theorem State.sendResponse_yh (s : State) (r : Response) : (s.sendResponse r).yh = s.yh := rfl
@[simp] theorem State.sendResponse_dx (s : State) (r : Response) : (s.sendResponse r).dx = s.dx := rfl
@[simp] theorem State.sendResponse_dy (s : State) (r : Response) : (s.sendResponse r).dy = s.dy := rfl
@[simp] theorem State.sendResponse_aspectEn (s : State) (r : Response) : (s.sendResponse r).aspectEn = s.aspectEn := rfl
@[simp] theorem State.sendResponse_aspect (s : State) (r : Response) : (s.sendResponse r).aspect = s.aspect := rfl
@[simp] theorem State.sendResponse_pal (s : State) (r : Response) : (s.sendResponse r).pal = s.pal := rfl
@[simp] theorem State.sendResponse_glyph (s : State) (r : Response) : (s.sendResponse r).glyph = s.glyph := rfl
@[simp] theorem State.sendResponse_down (s : State) (r : Response) : (s.sendResponse r).down = s.down := rfl
@[simp] theorem State.sendResponse_pressed (s : State) (r : Response) : (s.sendResponse r).pressed = s.pressed := rfl
@[simp] theorem State.sendResponse_mx (s : State) (r : Response) : (s.sendResponse r).mx = s.mx := rfl
@[simp] theorem State.sendResponse_my (s : State) (r : Response) : (s.sendResponse r).my = s.my := rfl
@[simp] theorem State.sendResponse_text (s : State) (r : Response) : (s.sendResponse r).text = s.text := rfl
@[simp] theorem State.sendResponse_seed (s : State) (r : Response) : (s.sendResponse r).seed = s.seed := rfl
@[simp] theorem State.sendResponse_quit (s : State) (r : Response) : (s.sendResponse r).quit = s.quit := rfl
@[simp] theorem State.sendResponse_cbEn (s : State) (r : Response) : (s.sendResponse r).cbEn = s.cbEn := rfl
@[simp] theorem State.sendResponse_err (s : State) (r : Response) : (s.sendResponse r).err = s.err := rfl
@[simp] theorem State.sendResponse_errcmd (s : State) (r : Response) : (s.sendResponse r).errcmd = s.errcmd := rfl
@[simp] theorem State.sendResponse_lastt (s : State) (r : Response) : (s.sendResponse r).lastt = s.lastt := rfl
@[simp] theorem State.sendResponse_evq (s : State) (r : Response) : (s.sendResponse r).evq = s.evq := rfl
@[simp] theorem State.sendResponse_opened (s : State) (r : Response) : (s.sendResponse r).opened = s.opened := rfl
@[simp] theorem State.sendResponse_cmdPort (s : State) (r : Response) : (s.sendResponse r).cmdPort = s.cmdPort := rfl
@[simp] theorem State.sendResponse_rspPort (s : State) (r : Response) : (s.sendResponse r).rspPort = s.rspPort ++ [r] := rfl
@[simp] theorem State.sendResponse_dispPort (s : State) (r : Response) : (s.sendResponse r).dispPort = s.dispPort := rfl
@[simp] theorem State.sendResponse_cbPort (s : State) (r : Response) : (s.sendResponse r).cbPort = s.cbPort := rfl
@[simp] theorem State.sendResponse_now (s : State) (r : Response) : (s.sendResponse r).now = s.now := rfl
@[simp] theorem State.sendResponse_devices (s : State) (r : Response) : (s.sendResponse r).devices = s.devices := rfl
@[simp] theorem State.sendResponse_turns (s : State) (r : Response) : (s.sendResponse r).turns = s.turns := rfl
@[simp] theorem State.sendResponse_draws (s : State) (r : Response) : (s.sendResponse r).draws = s.draws := rfl

/-! ### sendDisplay -/

@[simp] theorem State.sendDisplay_params (s : State) (r : DisplayRecord) : (s.sendDisplay r).params = s.params := rfl
@[simp] theorem State.sendDisplay_phase (s : State) (r : DisplayRecord) : (s.sendDisplay r).phase = s.phase := rfl
@[simp] theorem State.sendDisplay_w (s : State) (r : DisplayRecord) : (s.sendDisplay r).w = s.w := rfl
@[simp] theorem State.sendDisplay_h (s : State) (r : DisplayRecord) : (s.sendDisplay r).h = s.h := rfl
@[simp] theorem State.sendDisplay_fb (s : State) (r : DisplayRecord) : (s.sendDisplay r).fb = s.fb := rfl
@[simp] theorem State.sendDisplay_xl (s : State) (r : DisplayRecord) : (s.sendDisplay r).xl = s.xl := rfl
@[simp] theorem State.sendDisplay_yl (s : State) (r : DisplayRecord) : (s.sendDisplay r).yl = s.yl := rfl
@[simp] theorem State.sendDisplay_xh (s : State) (r : DisplayRecord) : (s.sendDisplay r).xh = s.xh := rfl
@[simp] theorem State.sendDisplay_yh (s : State) (r : DisplayRecord) : (s.sendDisplay r).yh = s.yh := rfl
@[simp] theorem State.sendDisplay_dx (s : State) (r : DisplayRecord) : (s.sendDisplay r).dx = s.dx := rfl
@[simp] theorem State.sendDisplay_dy (s : State) (r : DisplayRecord) : (s.sendDisplay r).dy = s.dy := rfl
@[simp] theorem State.sendDisplay_aspectEn (s : State) (r : DisplayRecord) : (s.sendDisplay r).aspectEn = s.aspectEn := rfl
@[simp] theorem State.sendDisplay_aspect (s : State) (r : DisplayRecord) : (s.sendDisplay r).aspect = s.aspect := rfl
@[simp] theorem State.sendDisplay_pal (s : State) (r : DisplayRecord) : (s.sendDisplay r).pal = s.pal := rfl
@[simp] theorem State.sendDisplay_glyph (s : State) (r : DisplayRecord) : (s.sendDisplay r).glyph = s.glyph := rfl
@[simp] theorem State.sendDisplay_down (s : State) (r : DisplayRecord) : (s.sendDisplay r).down = s.down := rfl
@[simp] theorem State.sendDisplay_pressed (s : State) (r : DisplayRecord) : (s.sendDisplay r).pressed = s.pressed := rfl
@[simp] theorem State.sendDisplay_mx (s : State) (r : DisplayRecord) : (s.sendDisplay r).mx = s.mx := rfl
@[simp] theorem State.sendDisplay_my (s : State) (r : DisplayRecord) : (s.sendDisplay r).my = s.my := rfl
@[simp] theorem State.sendDisplay_text (s : State) (r : DisplayRecord) : (s.sendDisplay r).text = s.text := rfl
@[simp] theorem State.sendDisplay_seed (s : State) (r : DisplayRecord) : (s.sendDisplay r).seed = s.seed := rfl
@[simp] theorem State.sendDisplay_quit (s : State) (r : DisplayRecord) : (s.sendDisplay r).quit = s.quit := rfl
@[simp] theorem State.sendDisplay_cbEn (s : State) (r : DisplayRecord) : (s.sendDisplay r).cbEn = s.cbEn := rfl
@[simp] theorem State.sendDisplay_err (s : State) (r : DisplayRecord) : (s.sendDisplay r).err = s.err := rfl
@[simp] theorem State.sendDisplay_errcmd (s : State) (r : DisplayRecord) : (s.sendDisplay r).errcmd = s.errcmd := rfl
@[simp] theorem State.sendDisplay_lastt (s : State) (r : DisplayRecord) : (s.sendDisplay r).lastt = s.lastt := rfl
@[simp] theorem State.sendDisplay_evq (s : State) (r : DisplayRecord) : (s.sendDisplay r).evq = s.evq := rfl
@[simp] theorem State.sendDisplay_opened (s : State) (r : DisplayRecord) : (s.sendDisplay r).opened = s.opened := rfl
@[simp] theorem State.sendDisplay_cmdPort (s : State) (r : DisplayRecord) : (s.sendDisplay r).cmdPort = s.cmdPort := rfl
@[simp] theorem State.sendDisplay_rspPort (s : State) (r : DisplayRecord) : (s.sendDisplay r).rspPort = s.rspPort := rfl
@[simp] theorem State.sendDisplay_dispPort (s : State) (r : DisplayRecord) : (s.sendDisplay r).dispPort = s.dispPort ++ [r] := rfl
@[simp] theorem State.sendDisplay_cbPort (s : State) (r : DisplayRecord) : (s.sendDisplay r).cbPort = s.cbPort := rfl
@[simp] theorem State.sendDisplay_now (s : State) (r : DisplayRecord) : (s.sendDisplay r).now = s.now := rfl
@[simp] theorem State.sendDisplay_devices (s : State) (r : DisplayRecord) : (s.sendDisplay r).devices = s.devices := rfl
@[simp] theorem State.sendDisplay_turns (s : State) (r : DisplayRecord) : (s.sendDisplay r).turns = s.turns := rfl
@[simp] theorem State.sendDisplay_draws (s : State) (r : DisplayRecord) : (s.sendDisplay r).draws = s.draws := rfl

/-! ### sendFrameStart -/

@[simp] theorem State.sendFrameStart_params (s : State) (f : FrameStart) : (s.sendFrameStart f).params = s.params := rfl
@[simp] theorem State.sendFrameStart_phase (s : State) (f : FrameStart) : (s.sendFrameStart f).phase = s.phase := rfl
@[simp] theorem State.sendFrameStart_w (s : State) (f : FrameStart) : (s.sendFrameStart f).w = s.w := rfl
@[simp] theorem State.sendFrameStart_h (s : State) (f : FrameStart) : (s.sendFrameStart f).h = s.h := rfl
@[simp] theorem State.sendFrameStart_fb (s : State) (f : FrameStart) : (s.sendFrameStart f).fb = s.fb := rfl
@[simp] theorem State.sendFrameStart_xl (s : State) (f : FrameStart) : (s.sendFrameStart f).xl = s.xl := rfl
@[simp] theorem State.sendFrameStart_yl (s : State) (f : FrameStart) : (s.sendFrameStart f).yl = s.yl := rfl
@[simp] theorem State.sendFrameStart_xh (s : State) (f : FrameStart) : (s.sendFrameStart f).xh = s.xh := rfl
@[simp] theorem State.sendFrameStart_yh (s : State) (f : FrameStart) : (s.sendFrameStart f).yh = s.yh := rfl
@[simp] theorem State.sendFrameStart_dx (s : State) (f : FrameStart) : (s.sendFrameStart f).dx = s.dx := rfl
@[simp] theorem State.sendFrameStart_dy (s : State) (f : FrameStart) : (s.sendFrameStart f).dy = s.dy := rfl
@[simp] theorem State.sendFrameStart_aspectEn (s : State) (f : FrameStart) : (s.sendFrameStart f).aspectEn = s.aspectEn := rfl
@[simp] theorem State.sendFrameStart_aspect (s : State) (f : FrameStart) : (s.sendFrameStart f).aspect = s.aspect := rfl
@[simp] theorem State.sendFrameStart_pal (s : State) (f : FrameStart) : (s.sendFrameStart f).pal = s.pal := rfl
@[simp] theorem State.sendFrameStart_glyph (s : State) (f : FrameStart) : (s.sendFrameStart f).glyph = s.glyph := rfl
@[simp] theorem State.sendFrameStart_down (s : State) (f : FrameStart) : (s.sendFrameStart f).down = s.down := rfl
@[simp] theorem State.sendFrameStart_pressed (s : State) (f : FrameStart) : (s.sendFrameStart f).pressed = s.pressed := rfl
@[simp] theorem State.sendFrameStart_mx (s : State) (f : FrameStart) : (s.sendFrameStart f).mx = s.mx := rfl
@[simp] theorem State.sendFrameStart_my (s : State) (f : FrameStart) : (s.sendFrameStart f).my = s.my := rfl
@[simp] theorem State.sendFrameStart_text (s : State) (f : FrameStart) : (s.sendFrameStart f).text = s.text := rfl
@[simp] theorem State.sendFrameStart_seed (s : State) (f : FrameStart) : (s.sendFrameStart f).seed = s.seed := rfl
@[simp] theorem State.sendFrameStart_quit (s : State) (f : FrameStart) : (s.sendFrameStart f).quit = s.quit := rfl
@[simp] theorem State.sendFrameStart_cbEn (s : State) (f : FrameStart) : (s.sendFrameStart f).cbEn = s.cbEn := rfl
@[simp] theorem State.sendFrameStart_err (s : State) (f : FrameStart) : (s.sendFrameStart f).err = s.err := rfl
@[simp] theorem State.sendFrameStart_errcmd (s : State) (f : FrameStart) : (s.sendFrameStart f).errcmd = s.errcmd := rfl
@[simp] theorem State.sendFrameStart_lastt (s : State) (f : FrameStart) : (s.sendFrameStart f).lastt = s.lastt := rfl
@[simp] theorem State.sendFrameStart_evq (s : State) (f : FrameStart) : (s.sendFrameStart f).evq = s.evq := rfl
@[simp] theorem State.sendFrameStart_opened (s : State) (f : FrameStart) : (s.sendFrameStart f).opened = s.opened := rfl
@[simp] theorem State.sendFrameStart_cmdPort (s : State) (f : FrameStart) : (s.sendFrameStart f).cmdPort = s.cmdPort := rfl
@[simp] theorem State.sendFrameStart_rspPort (s : State) (f : FrameStart) : (s.sendFrameStart f).rspPort = s.rspPort := rfl
@[simp] theorem State.sendFrameStart_dispPort (s : State) (f : FrameStart) : (s.sendFrameStart f).dispPort = s.dispPort := rfl
@[simp] theorem State.sendFrameStart_cbPort (s : State) (f : FrameStart) : (s.sendFrameStart f).cbPort = s.cbPort ++ [f] := rfl
@[simp] theorem State.sendFrameStart_now (s : State) (f : FrameStart) : (s.sendFrameStart f).now = s.now := rfl
@[simp] theorem State.sendFrameStart_devices (s : State) (f : FrameStart) : (s.sendFrameStart f).devices = s.devices := rfl
@[simp] theorem State.sendFrameStart_turns (s : State) (f : FrameStart) : (s.sendFrameStart f).turns = s.turns := rfl
@[simp] theorem State.sendFrameStart_draws (s : State) (f : FrameStart) : (s.sendFrameStart f).draws = s.draws := rfl

/-! ### respond and raiseFault -/

@[simp] theorem State.respond_params (s : State) (vs : List Word) : (s.respond vs).params = s.params := rfl
@[simp] theorem State.respond_phase (s : State) (vs : List Word) : (s.respond vs).phase = s.phase := rfl
@[simp] theorem State.respond_w (s : State) (vs : List Word) : (s.respond vs).w = s.w := rfl
@[simp] theorem State.respond_h (s : State) (vs : List Word) : (s.respond vs).h = s.h := rfl
@[simp] theorem State.respond_fb (s : State) (vs : List Word) : (s.respond vs).fb = s.fb := rfl
@[simp] theorem State.respond_xl (s : State) (vs : List Word) : (s.respond vs).xl = s.xl := rfl
@[simp] theorem State.respond_yl (s : State) (vs : List Word) : (s.respond vs).yl = s.yl := rfl
@[simp] theorem State.respond_xh (s : State) (vs : List Word) : (s.respond vs).xh = s.xh := rfl
@[simp] theorem State.respond_yh (s : State) (vs : List Word) : (s.respond vs).yh = s.yh := rfl
@[simp] theorem State.respond_dx (s : State) (vs : List Word) : (s.respond vs).dx = s.dx := rfl
@[simp] theorem State.respond_dy (s : State) (vs : List Word) : (s.respond vs).dy = s.dy := rfl
@[simp] theorem State.respond_aspectEn (s : State) (vs : List Word) : (s.respond vs).aspectEn = s.aspectEn := rfl
@[simp] theorem State.respond_aspect (s : State) (vs : List Word) : (s.respond vs).aspect = s.aspect := rfl
@[simp] theorem State.respond_pal (s : State) (vs : List Word) : (s.respond vs).pal = s.pal := rfl
@[simp] theorem State.respond_glyph (s : State) (vs : List Word) : (s.respond vs).glyph = s.glyph := rfl
@[simp] theorem State.respond_down (s : State) (vs : List Word) : (s.respond vs).down = s.down := rfl
@[simp] theorem State.respond_pressed (s : State) (vs : List Word) : (s.respond vs).pressed = s.pressed := rfl
@[simp] theorem State.respond_mx (s : State) (vs : List Word) : (s.respond vs).mx = s.mx := rfl
@[simp] theorem State.respond_my (s : State) (vs : List Word) : (s.respond vs).my = s.my := rfl
@[simp] theorem State.respond_text (s : State) (vs : List Word) : (s.respond vs).text = s.text := rfl
@[simp] theorem State.respond_seed (s : State) (vs : List Word) : (s.respond vs).seed = s.seed := rfl
@[simp] theorem State.respond_quit (s : State) (vs : List Word) : (s.respond vs).quit = s.quit := rfl
@[simp] theorem State.respond_cbEn (s : State) (vs : List Word) : (s.respond vs).cbEn = s.cbEn := rfl
@[simp] theorem State.respond_err (s : State) (vs : List Word) : (s.respond vs).err = s.err := rfl
@[simp] theorem State.respond_errcmd (s : State) (vs : List Word) : (s.respond vs).errcmd = s.errcmd := rfl
@[simp] theorem State.respond_lastt (s : State) (vs : List Word) : (s.respond vs).lastt = s.lastt := rfl
@[simp] theorem State.respond_evq (s : State) (vs : List Word) : (s.respond vs).evq = s.evq := rfl
@[simp] theorem State.respond_opened (s : State) (vs : List Word) : (s.respond vs).opened = s.opened := rfl
@[simp] theorem State.respond_cmdPort (s : State) (vs : List Word) : (s.respond vs).cmdPort = s.cmdPort := rfl
@[simp] theorem State.respond_rspPort (s : State) (vs : List Word) : (s.respond vs).rspPort = s.rspPort ++ [⟨0, vs⟩] := rfl
@[simp] theorem State.respond_dispPort (s : State) (vs : List Word) : (s.respond vs).dispPort = s.dispPort := rfl
@[simp] theorem State.respond_cbPort (s : State) (vs : List Word) : (s.respond vs).cbPort = s.cbPort := rfl
@[simp] theorem State.respond_now (s : State) (vs : List Word) : (s.respond vs).now = s.now := rfl
@[simp] theorem State.respond_devices (s : State) (vs : List Word) : (s.respond vs).devices = s.devices := rfl
@[simp] theorem State.respond_turns (s : State) (vs : List Word) : (s.respond vs).turns = s.turns := rfl
@[simp] theorem State.respond_draws (s : State) (vs : List Word) : (s.respond vs).draws = s.draws := rfl

@[simp] theorem State.raiseFault_params (s : State) (e : ErrCode) (h : Word) : (s.raiseFault e h).params = s.params := rfl
@[simp] theorem State.raiseFault_phase (s : State) (e : ErrCode) (h : Word) : (s.raiseFault e h).phase = .faulted := rfl
@[simp] theorem State.raiseFault_w (s : State) (e : ErrCode) (h : Word) : (s.raiseFault e h).w = s.w := rfl
@[simp] theorem State.raiseFault_h (s : State) (e : ErrCode) (h : Word) : (s.raiseFault e h).h = s.h := rfl
@[simp] theorem State.raiseFault_fb (s : State) (e : ErrCode) (h : Word) : (s.raiseFault e h).fb = s.fb := rfl
@[simp] theorem State.raiseFault_xl (s : State) (e : ErrCode) (h : Word) : (s.raiseFault e h).xl = s.xl := rfl
@[simp] theorem State.raiseFault_yl (s : State) (e : ErrCode) (h : Word) : (s.raiseFault e h).yl = s.yl := rfl
@[simp] theorem State.raiseFault_xh (s : State) (e : ErrCode) (h : Word) : (s.raiseFault e h).xh = s.xh := rfl
@[simp] theorem State.raiseFault_yh (s : State) (e : ErrCode) (h : Word) : (s.raiseFault e h).yh = s.yh := rfl
@[simp] theorem State.raiseFault_dx (s : State) (e : ErrCode) (h : Word) : (s.raiseFault e h).dx = s.dx := rfl
@[simp] theorem State.raiseFault_dy (s : State) (e : ErrCode) (h : Word) : (s.raiseFault e h).dy = s.dy := rfl
@[simp] theorem State.raiseFault_aspectEn (s : State) (e : ErrCode) (h : Word) : (s.raiseFault e h).aspectEn = s.aspectEn := rfl
@[simp] theorem State.raiseFault_aspect (s : State) (e : ErrCode) (h : Word) : (s.raiseFault e h).aspect = s.aspect := rfl
@[simp] theorem State.raiseFault_pal (s : State) (e : ErrCode) (h : Word) : (s.raiseFault e h).pal = s.pal := rfl
@[simp] theorem State.raiseFault_glyph (s : State) (e : ErrCode) (h : Word) : (s.raiseFault e h).glyph = s.glyph := rfl
@[simp] theorem State.raiseFault_down (s : State) (e : ErrCode) (h : Word) : (s.raiseFault e h).down = s.down := rfl
@[simp] theorem State.raiseFault_pressed (s : State) (e : ErrCode) (h : Word) : (s.raiseFault e h).pressed = s.pressed := rfl
@[simp] theorem State.raiseFault_mx (s : State) (e : ErrCode) (h : Word) : (s.raiseFault e h).mx = s.mx := rfl
@[simp] theorem State.raiseFault_my (s : State) (e : ErrCode) (h : Word) : (s.raiseFault e h).my = s.my := rfl
@[simp] theorem State.raiseFault_text (s : State) (e : ErrCode) (h : Word) : (s.raiseFault e h).text = s.text := rfl
@[simp] theorem State.raiseFault_seed (s : State) (e : ErrCode) (h : Word) : (s.raiseFault e h).seed = s.seed := rfl
@[simp] theorem State.raiseFault_quit (s : State) (e : ErrCode) (h : Word) : (s.raiseFault e h).quit = s.quit := rfl
@[simp] theorem State.raiseFault_cbEn (s : State) (e : ErrCode) (h : Word) : (s.raiseFault e h).cbEn = s.cbEn := rfl
@[simp] theorem State.raiseFault_err (s : State) (e : ErrCode) (h : Word) : (s.raiseFault e h).err = e.code := rfl
@[simp] theorem State.raiseFault_errcmd (s : State) (e : ErrCode) (h : Word) : (s.raiseFault e h).errcmd = h := rfl
@[simp] theorem State.raiseFault_lastt (s : State) (e : ErrCode) (h : Word) : (s.raiseFault e h).lastt = s.lastt := rfl
@[simp] theorem State.raiseFault_evq (s : State) (e : ErrCode) (h : Word) : (s.raiseFault e h).evq = s.evq := rfl
@[simp] theorem State.raiseFault_opened (s : State) (e : ErrCode) (h : Word) : (s.raiseFault e h).opened = s.opened := rfl
@[simp] theorem State.raiseFault_cmdPort (s : State) (e : ErrCode) (h : Word) : (s.raiseFault e h).cmdPort = s.cmdPort := rfl
@[simp] theorem State.raiseFault_rspPort (s : State) (e : ErrCode) (h : Word) : (s.raiseFault e h).rspPort = s.rspPort ++ [⟨e.code, []⟩] := rfl
@[simp] theorem State.raiseFault_dispPort (s : State) (e : ErrCode) (h : Word) : (s.raiseFault e h).dispPort = s.dispPort := rfl
@[simp] theorem State.raiseFault_cbPort (s : State) (e : ErrCode) (h : Word) : (s.raiseFault e h).cbPort = s.cbPort := rfl
@[simp] theorem State.raiseFault_now (s : State) (e : ErrCode) (h : Word) : (s.raiseFault e h).now = s.now := rfl
@[simp] theorem State.raiseFault_devices (s : State) (e : ErrCode) (h : Word) : (s.raiseFault e h).devices = s.devices := rfl
@[simp] theorem State.raiseFault_turns (s : State) (e : ErrCode) (h : Word) : (s.raiseFault e h).turns = s.turns := rfl
@[simp] theorem State.raiseFault_draws (s : State) (e : ErrCode) (h : Word) : (s.raiseFault e h).draws = s.draws := rfl

end Sys2Proof.Machine
end

