-- ==== Sys2Proof/Laws/Memory.lean ====
section
/-! SUPPORT. The laws of the framebuffer's memory: a read after a write, and that every operation keeps the
canonical form. -/

namespace Sys2Proof.Machine

/-- A read after a write gives the written byte at its address and the old answer elsewhere. -/
theorem Memory.read?_write (m : Memory) (a b : Nat) (v : Byte) :
    (m.write a v).read? b = if b = a then some v else m.read? b := by
  induction m with
  | nil => simp [Memory.write, Memory.read?]
  | cons c m ih =>
    obtain ⟨d, u⟩ := c
    unfold Memory.write
    split_ifs with h1 h2 h3 h3 h3 <;> simp_all [Memory.read?]

/-- Every address of a write's result is the written one or an old one. -/
theorem Memory.mem_write (m : Memory) (a : Nat) (v : Byte) (c : Host.Cell) (h : c ∈ m.write a v) :
    c = (a, v) ∨ c ∈ m := by
  induction m with
  | nil => simpa [Memory.write] using h
  | cons d m ih =>
    obtain ⟨d, u⟩ := d
    unfold Memory.write at h
    split_ifs at h with h1 h2
    · simpa using h
    · rcases List.mem_cons.mp h with h | h
      · exact .inl h
      · exact .inr (List.mem_cons_of_mem _ h)
    · rcases List.mem_cons.mp h with h | h
      · exact .inr (h ▸ List.mem_cons_self)
      · exact (ih h).imp id (List.mem_cons_of_mem _)

/-- The canonical form, as a statement about pairs of entries. -/
theorem Memory.wf_iff (m : Memory) : m.wf = true ↔ m.Pairwise (fun c d => c.1 < d.1) := by
  induction m with
  | nil => simp [Memory.wf]
  | cons a m ih =>
    cases m with
    | nil => simp [Memory.wf]
    | cons b m =>
      rw [Memory.wf, Bool.and_eq_true, ih, decide_eq_true_eq, List.pairwise_cons (a := a)]
      refine ⟨fun ⟨hab, hm⟩ => ⟨fun c hc => ?_, hm⟩, fun ⟨ha, hm⟩ => ⟨ha b List.mem_cons_self, hm⟩⟩
      rcases List.mem_cons.mp hc with rfl | hc
      · exact hab
      · exact hab.trans ((List.pairwise_cons.mp hm).1 c hc)

/-- A write keeps the canonical form. -/
theorem Memory.wf_write (m : Memory) (a : Nat) (v : Byte) (h : m.wf = true) : (m.write a v).wf = true := by
  rw [Memory.wf_iff] at *
  induction m with
  | nil => simp [Memory.write]
  | cons c m ih =>
    obtain ⟨d, u⟩ := c
    have ⟨hd, hm⟩ := List.pairwise_cons.mp h
    unfold Memory.write
    split_ifs with h1 h2
    · refine List.pairwise_cons.mpr ⟨fun x hx => ?_, h⟩
      rcases List.mem_cons.mp hx with rfl | hx
      · exact h1
      · exact h1.trans (hd x hx)
    · subst h2
      exact List.pairwise_cons.mpr ⟨hd, hm⟩
    · refine List.pairwise_cons.mpr ⟨fun x hx => ?_, ih hm⟩
      rcases Memory.mem_write m a v x hx with rfl | hx
      · show d < a
        omega
      · exact hd x hx

/-- Filling is canonical. -/
theorem Memory.wf_filled (n : Nat) (v : Byte) : (Memory.filled n v).wf = true := by
  rw [Memory.wf_iff, Memory.filled, List.pairwise_map]
  exact List.pairwise_lt_range

/-- A filled memory holds `v` below `n` and nothing from `n` on. -/
theorem Memory.read?_filled (n : Nat) (v : Byte) (a : Nat) :
    (Memory.filled n v).read? a = if a < n then some v else none := by
  have key : ∀ l : List Nat, Memory.read? (l.map fun b => (b, v)) a = if a ∈ l then some v else none := by
    intro l
    induction l with
    | nil => simp [Memory.read?]
    | cons b l ih =>
      by_cases hb : a = b <;> simp [Memory.read?, hb, ih]
  simpa [Memory.filled] using key (List.range n)

/-- The addresses of a filled memory lie below `n`. -/
theorem Memory.mem_filled (n : Nat) (v : Byte) (c : Host.Cell) (h : c ∈ Memory.filled n v) : c.1 < n := by
  obtain ⟨a, ha, rfl⟩ := List.mem_map.mp h
  exact List.mem_range.mp ha

end Sys2Proof.Machine
end

