-- ==== Sys2Proof/Laws/Updates.lean ====
section
/-! SUPPORT. What each update that is built from setters leaves in the fields of the state it does not write. -/

namespace Sys2Proof.Machine

/-! ### pset -/

@[simp] theorem State.pset_params (s : State) (c : Byte) (x y : Int) : (s.pset c x y).params = s.params := rfl
@[simp] theorem State.pset_phase (s : State) (c : Byte) (x y : Int) : (s.pset c x y).phase = s.phase := rfl
@[simp] theorem State.pset_w (s : State) (c : Byte) (x y : Int) : (s.pset c x y).w = s.w := rfl
@[simp] theorem State.pset_h (s : State) (c : Byte) (x y : Int) : (s.pset c x y).h = s.h := rfl
@[simp] theorem State.pset_xl (s : State) (c : Byte) (x y : Int) : (s.pset c x y).xl = s.xl := rfl
@[simp] theorem State.pset_yl (s : State) (c : Byte) (x y : Int) : (s.pset c x y).yl = s.yl := rfl
@[simp] theorem State.pset_xh (s : State) (c : Byte) (x y : Int) : (s.pset c x y).xh = s.xh := rfl
@[simp] theorem State.pset_yh (s : State) (c : Byte) (x y : Int) : (s.pset c x y).yh = s.yh := rfl
@[simp] theorem State.pset_dx (s : State) (c : Byte) (x y : Int) : (s.pset c x y).dx = s.dx := rfl
@[simp] theorem State.pset_dy (s : State) (c : Byte) (x y : Int) : (s.pset c x y).dy = s.dy := rfl
@[simp] theorem State.pset_aspectEn (s : State) (c : Byte) (x y : Int) : (s.pset c x y).aspectEn = s.aspectEn := rfl
@[simp] theorem State.pset_aspect (s : State) (c : Byte) (x y : Int) : (s.pset c x y).aspect = s.aspect := rfl
@[simp] theorem State.pset_pal (s : State) (c : Byte) (x y : Int) : (s.pset c x y).pal = s.pal := rfl
@[simp] theorem State.pset_glyph (s : State) (c : Byte) (x y : Int) : (s.pset c x y).glyph = s.glyph := rfl
@[simp] theorem State.pset_down (s : State) (c : Byte) (x y : Int) : (s.pset c x y).down = s.down := rfl
@[simp] theorem State.pset_pressed (s : State) (c : Byte) (x y : Int) : (s.pset c x y).pressed = s.pressed := rfl
@[simp] theorem State.pset_mx (s : State) (c : Byte) (x y : Int) : (s.pset c x y).mx = s.mx := rfl
@[simp] theorem State.pset_my (s : State) (c : Byte) (x y : Int) : (s.pset c x y).my = s.my := rfl
@[simp] theorem State.pset_text (s : State) (c : Byte) (x y : Int) : (s.pset c x y).text = s.text := rfl
@[simp] theorem State.pset_seed (s : State) (c : Byte) (x y : Int) : (s.pset c x y).seed = s.seed := rfl
@[simp] theorem State.pset_quit (s : State) (c : Byte) (x y : Int) : (s.pset c x y).quit = s.quit := rfl
@[simp] theorem State.pset_cbEn (s : State) (c : Byte) (x y : Int) : (s.pset c x y).cbEn = s.cbEn := rfl
@[simp] theorem State.pset_err (s : State) (c : Byte) (x y : Int) : (s.pset c x y).err = s.err := rfl
@[simp] theorem State.pset_errcmd (s : State) (c : Byte) (x y : Int) : (s.pset c x y).errcmd = s.errcmd := rfl
@[simp] theorem State.pset_lastt (s : State) (c : Byte) (x y : Int) : (s.pset c x y).lastt = s.lastt := rfl
@[simp] theorem State.pset_evq (s : State) (c : Byte) (x y : Int) : (s.pset c x y).evq = s.evq := rfl
@[simp] theorem State.pset_opened (s : State) (c : Byte) (x y : Int) : (s.pset c x y).opened = s.opened := rfl
@[simp] theorem State.pset_cmdPort (s : State) (c : Byte) (x y : Int) : (s.pset c x y).cmdPort = s.cmdPort := rfl
@[simp] theorem State.pset_rspPort (s : State) (c : Byte) (x y : Int) : (s.pset c x y).rspPort = s.rspPort := rfl
@[simp] theorem State.pset_dispPort (s : State) (c : Byte) (x y : Int) : (s.pset c x y).dispPort = s.dispPort := rfl
@[simp] theorem State.pset_cbPort (s : State) (c : Byte) (x y : Int) : (s.pset c x y).cbPort = s.cbPort := rfl
@[simp] theorem State.pset_now (s : State) (c : Byte) (x y : Int) : (s.pset c x y).now = s.now := rfl
@[simp] theorem State.pset_devices (s : State) (c : Byte) (x y : Int) : (s.pset c x y).devices = s.devices := rfl
@[simp] theorem State.pset_turns (s : State) (c : Byte) (x y : Int) : (s.pset c x y).turns = s.turns := rfl
@[simp] theorem State.pset_draws (s : State) (c : Byte) (x y : Int) : (s.pset c x y).draws = s.draws := rfl

/-! ### drawAll -/

@[simp] theorem State.drawAll_params (s : State) (ps : List Pixel) : (s.drawAll ps).params = s.params := rfl
@[simp] theorem State.drawAll_phase (s : State) (ps : List Pixel) : (s.drawAll ps).phase = s.phase := rfl
@[simp] theorem State.drawAll_w (s : State) (ps : List Pixel) : (s.drawAll ps).w = s.w := rfl
@[simp] theorem State.drawAll_h (s : State) (ps : List Pixel) : (s.drawAll ps).h = s.h := rfl
@[simp] theorem State.drawAll_xl (s : State) (ps : List Pixel) : (s.drawAll ps).xl = s.xl := rfl
@[simp] theorem State.drawAll_yl (s : State) (ps : List Pixel) : (s.drawAll ps).yl = s.yl := rfl
@[simp] theorem State.drawAll_xh (s : State) (ps : List Pixel) : (s.drawAll ps).xh = s.xh := rfl
@[simp] theorem State.drawAll_yh (s : State) (ps : List Pixel) : (s.drawAll ps).yh = s.yh := rfl
@[simp] theorem State.drawAll_dx (s : State) (ps : List Pixel) : (s.drawAll ps).dx = s.dx := rfl
@[simp] theorem State.drawAll_dy (s : State) (ps : List Pixel) : (s.drawAll ps).dy = s.dy := rfl
@[simp] theorem State.drawAll_aspectEn (s : State) (ps : List Pixel) : (s.drawAll ps).aspectEn = s.aspectEn := rfl
@[simp] theorem State.drawAll_aspect (s : State) (ps : List Pixel) : (s.drawAll ps).aspect = s.aspect := rfl
@[simp] theorem State.drawAll_pal (s : State) (ps : List Pixel) : (s.drawAll ps).pal = s.pal := rfl
@[simp] theorem State.drawAll_glyph (s : State) (ps : List Pixel) : (s.drawAll ps).glyph = s.glyph := rfl
@[simp] theorem State.drawAll_down (s : State) (ps : List Pixel) : (s.drawAll ps).down = s.down := rfl
@[simp] theorem State.drawAll_pressed (s : State) (ps : List Pixel) : (s.drawAll ps).pressed = s.pressed := rfl
@[simp] theorem State.drawAll_mx (s : State) (ps : List Pixel) : (s.drawAll ps).mx = s.mx := rfl
@[simp] theorem State.drawAll_my (s : State) (ps : List Pixel) : (s.drawAll ps).my = s.my := rfl
@[simp] theorem State.drawAll_text (s : State) (ps : List Pixel) : (s.drawAll ps).text = s.text := rfl
@[simp] theorem State.drawAll_seed (s : State) (ps : List Pixel) : (s.drawAll ps).seed = s.seed := rfl
@[simp] theorem State.drawAll_quit (s : State) (ps : List Pixel) : (s.drawAll ps).quit = s.quit := rfl
@[simp] theorem State.drawAll_cbEn (s : State) (ps : List Pixel) : (s.drawAll ps).cbEn = s.cbEn := rfl
@[simp] theorem State.drawAll_err (s : State) (ps : List Pixel) : (s.drawAll ps).err = s.err := rfl
@[simp] theorem State.drawAll_errcmd (s : State) (ps : List Pixel) : (s.drawAll ps).errcmd = s.errcmd := rfl
@[simp] theorem State.drawAll_lastt (s : State) (ps : List Pixel) : (s.drawAll ps).lastt = s.lastt := rfl
@[simp] theorem State.drawAll_evq (s : State) (ps : List Pixel) : (s.drawAll ps).evq = s.evq := rfl
@[simp] theorem State.drawAll_opened (s : State) (ps : List Pixel) : (s.drawAll ps).opened = s.opened := rfl
@[simp] theorem State.drawAll_cmdPort (s : State) (ps : List Pixel) : (s.drawAll ps).cmdPort = s.cmdPort := rfl
@[simp] theorem State.drawAll_rspPort (s : State) (ps : List Pixel) : (s.drawAll ps).rspPort = s.rspPort := rfl
@[simp] theorem State.drawAll_dispPort (s : State) (ps : List Pixel) : (s.drawAll ps).dispPort = s.dispPort := rfl
@[simp] theorem State.drawAll_cbPort (s : State) (ps : List Pixel) : (s.drawAll ps).cbPort = s.cbPort := rfl
@[simp] theorem State.drawAll_now (s : State) (ps : List Pixel) : (s.drawAll ps).now = s.now := rfl
@[simp] theorem State.drawAll_devices (s : State) (ps : List Pixel) : (s.drawAll ps).devices = s.devices := rfl
@[simp] theorem State.drawAll_turns (s : State) (ps : List Pixel) : (s.drawAll ps).turns = s.turns := rfl
@[simp] theorem State.drawAll_draws (s : State) (ps : List Pixel) : (s.drawAll ps).draws = s.draws := rfl

/-! ### drawPoints -/

@[simp] theorem State.drawPoints_params (s : State) (c : Byte) (ps : List (Int × Int)) : (s.drawPoints c ps).params = s.params := rfl
@[simp] theorem State.drawPoints_phase (s : State) (c : Byte) (ps : List (Int × Int)) : (s.drawPoints c ps).phase = s.phase := rfl
@[simp] theorem State.drawPoints_w (s : State) (c : Byte) (ps : List (Int × Int)) : (s.drawPoints c ps).w = s.w := rfl
@[simp] theorem State.drawPoints_h (s : State) (c : Byte) (ps : List (Int × Int)) : (s.drawPoints c ps).h = s.h := rfl
@[simp] theorem State.drawPoints_xl (s : State) (c : Byte) (ps : List (Int × Int)) : (s.drawPoints c ps).xl = s.xl := rfl
@[simp] theorem State.drawPoints_yl (s : State) (c : Byte) (ps : List (Int × Int)) : (s.drawPoints c ps).yl = s.yl := rfl
@[simp] theorem State.drawPoints_xh (s : State) (c : Byte) (ps : List (Int × Int)) : (s.drawPoints c ps).xh = s.xh := rfl
@[simp] theorem State.drawPoints_yh (s : State) (c : Byte) (ps : List (Int × Int)) : (s.drawPoints c ps).yh = s.yh := rfl
@[simp] theorem State.drawPoints_dx (s : State) (c : Byte) (ps : List (Int × Int)) : (s.drawPoints c ps).dx = s.dx := rfl
@[simp] theorem State.drawPoints_dy (s : State) (c : Byte) (ps : List (Int × Int)) : (s.drawPoints c ps).dy = s.dy := rfl
@[simp] theorem State.drawPoints_aspectEn (s : State) (c : Byte) (ps : List (Int × Int)) : (s.drawPoints c ps).aspectEn = s.aspectEn := rfl
@[simp] theorem State.drawPoints_aspect (s : State) (c : Byte) (ps : List (Int × Int)) : (s.drawPoints c ps).aspect = s.aspect := rfl
@[simp] theorem State.drawPoints_pal (s : State) (c : Byte) (ps : List (Int × Int)) : (s.drawPoints c ps).pal = s.pal := rfl
@[simp] theorem State.drawPoints_glyph (s : State) (c : Byte) (ps : List (Int × Int)) : (s.drawPoints c ps).glyph = s.glyph := rfl
@[simp] theorem State.drawPoints_down (s : State) (c : Byte) (ps : List (Int × Int)) : (s.drawPoints c ps).down = s.down := rfl
@[simp] theorem State.drawPoints_pressed (s : State) (c : Byte) (ps : List (Int × Int)) : (s.drawPoints c ps).pressed = s.pressed := rfl
@[simp] theorem State.drawPoints_mx (s : State) (c : Byte) (ps : List (Int × Int)) : (s.drawPoints c ps).mx = s.mx := rfl
@[simp] theorem State.drawPoints_my (s : State) (c : Byte) (ps : List (Int × Int)) : (s.drawPoints c ps).my = s.my := rfl
@[simp] theorem State.drawPoints_text (s : State) (c : Byte) (ps : List (Int × Int)) : (s.drawPoints c ps).text = s.text := rfl
@[simp] theorem State.drawPoints_seed (s : State) (c : Byte) (ps : List (Int × Int)) : (s.drawPoints c ps).seed = s.seed := rfl
@[simp] theorem State.drawPoints_quit (s : State) (c : Byte) (ps : List (Int × Int)) : (s.drawPoints c ps).quit = s.quit := rfl
@[simp] theorem State.drawPoints_cbEn (s : State) (c : Byte) (ps : List (Int × Int)) : (s.drawPoints c ps).cbEn = s.cbEn := rfl
@[simp] theorem State.drawPoints_err (s : State) (c : Byte) (ps : List (Int × Int)) : (s.drawPoints c ps).err = s.err := rfl
@[simp] theorem State.drawPoints_errcmd (s : State) (c : Byte) (ps : List (Int × Int)) : (s.drawPoints c ps).errcmd = s.errcmd := rfl
@[simp] theorem State.drawPoints_lastt (s : State) (c : Byte) (ps : List (Int × Int)) : (s.drawPoints c ps).lastt = s.lastt := rfl
@[simp] theorem State.drawPoints_evq (s : State) (c : Byte) (ps : List (Int × Int)) : (s.drawPoints c ps).evq = s.evq := rfl
@[simp] theorem State.drawPoints_opened (s : State) (c : Byte) (ps : List (Int × Int)) : (s.drawPoints c ps).opened = s.opened := rfl
@[simp] theorem State.drawPoints_cmdPort (s : State) (c : Byte) (ps : List (Int × Int)) : (s.drawPoints c ps).cmdPort = s.cmdPort := rfl
@[simp] theorem State.drawPoints_rspPort (s : State) (c : Byte) (ps : List (Int × Int)) : (s.drawPoints c ps).rspPort = s.rspPort := rfl
@[simp] theorem State.drawPoints_dispPort (s : State) (c : Byte) (ps : List (Int × Int)) : (s.drawPoints c ps).dispPort = s.dispPort := rfl
@[simp] theorem State.drawPoints_cbPort (s : State) (c : Byte) (ps : List (Int × Int)) : (s.drawPoints c ps).cbPort = s.cbPort := rfl
@[simp] theorem State.drawPoints_now (s : State) (c : Byte) (ps : List (Int × Int)) : (s.drawPoints c ps).now = s.now := rfl
@[simp] theorem State.drawPoints_devices (s : State) (c : Byte) (ps : List (Int × Int)) : (s.drawPoints c ps).devices = s.devices := rfl
@[simp] theorem State.drawPoints_turns (s : State) (c : Byte) (ps : List (Int × Int)) : (s.drawPoints c ps).turns = s.turns := rfl
@[simp] theorem State.drawPoints_draws (s : State) (c : Byte) (ps : List (Int × Int)) : (s.drawPoints c ps).draws = s.draws := rfl

/-! ### setResolution -/

@[simp] theorem State.setResolution_params (s : State) (w h : BitVec 16) : (s.setResolution w h).params = s.params := rfl
@[simp] theorem State.setResolution_phase (s : State) (w h : BitVec 16) : (s.setResolution w h).phase = s.phase := rfl
@[simp] theorem State.setResolution_dx (s : State) (w h : BitVec 16) : (s.setResolution w h).dx = s.dx := rfl
@[simp] theorem State.setResolution_dy (s : State) (w h : BitVec 16) : (s.setResolution w h).dy = s.dy := rfl
@[simp] theorem State.setResolution_aspectEn (s : State) (w h : BitVec 16) : (s.setResolution w h).aspectEn = s.aspectEn := rfl
@[simp] theorem State.setResolution_aspect (s : State) (w h : BitVec 16) : (s.setResolution w h).aspect = s.aspect := rfl
@[simp] theorem State.setResolution_pal (s : State) (w h : BitVec 16) : (s.setResolution w h).pal = s.pal := rfl
@[simp] theorem State.setResolution_glyph (s : State) (w h : BitVec 16) : (s.setResolution w h).glyph = s.glyph := rfl
@[simp] theorem State.setResolution_down (s : State) (w h : BitVec 16) : (s.setResolution w h).down = s.down := rfl
@[simp] theorem State.setResolution_pressed (s : State) (w h : BitVec 16) : (s.setResolution w h).pressed = s.pressed := rfl
@[simp] theorem State.setResolution_mx (s : State) (w h : BitVec 16) : (s.setResolution w h).mx = s.mx := rfl
@[simp] theorem State.setResolution_my (s : State) (w h : BitVec 16) : (s.setResolution w h).my = s.my := rfl
@[simp] theorem State.setResolution_text (s : State) (w h : BitVec 16) : (s.setResolution w h).text = s.text := rfl
@[simp] theorem State.setResolution_seed (s : State) (w h : BitVec 16) : (s.setResolution w h).seed = s.seed := rfl
@[simp] theorem State.setResolution_quit (s : State) (w h : BitVec 16) : (s.setResolution w h).quit = s.quit := rfl
@[simp] theorem State.setResolution_cbEn (s : State) (w h : BitVec 16) : (s.setResolution w h).cbEn = s.cbEn := rfl
@[simp] theorem State.setResolution_err (s : State) (w h : BitVec 16) : (s.setResolution w h).err = s.err := rfl
@[simp] theorem State.setResolution_errcmd (s : State) (w h : BitVec 16) : (s.setResolution w h).errcmd = s.errcmd := rfl
@[simp] theorem State.setResolution_lastt (s : State) (w h : BitVec 16) : (s.setResolution w h).lastt = s.lastt := rfl
@[simp] theorem State.setResolution_evq (s : State) (w h : BitVec 16) : (s.setResolution w h).evq = s.evq := rfl
@[simp] theorem State.setResolution_opened (s : State) (w h : BitVec 16) : (s.setResolution w h).opened = s.opened := rfl
@[simp] theorem State.setResolution_cmdPort (s : State) (w h : BitVec 16) : (s.setResolution w h).cmdPort = s.cmdPort := rfl
@[simp] theorem State.setResolution_rspPort (s : State) (w h : BitVec 16) : (s.setResolution w h).rspPort = s.rspPort := rfl
@[simp] theorem State.setResolution_dispPort (s : State) (w h : BitVec 16) : (s.setResolution w h).dispPort = s.dispPort := rfl
@[simp] theorem State.setResolution_cbPort (s : State) (w h : BitVec 16) : (s.setResolution w h).cbPort = s.cbPort := rfl
@[simp] theorem State.setResolution_now (s : State) (w h : BitVec 16) : (s.setResolution w h).now = s.now := rfl
@[simp] theorem State.setResolution_devices (s : State) (w h : BitVec 16) : (s.setResolution w h).devices = s.devices := rfl
@[simp] theorem State.setResolution_turns (s : State) (w h : BitVec 16) : (s.setResolution w h).turns = s.turns := rfl

/-! ### sendMode -/

@[simp] theorem State.sendMode_params (s : State)  : (s.sendMode).params = s.params := rfl
@[simp] theorem State.sendMode_phase (s : State)  : (s.sendMode).phase = s.phase := rfl
@[simp] theorem State.sendMode_w (s : State)  : (s.sendMode).w = s.w := rfl
@[simp] theorem State.sendMode_h (s : State)  : (s.sendMode).h = s.h := rfl
@[simp] theorem State.sendMode_fb (s : State)  : (s.sendMode).fb = s.fb := rfl
@[simp] theorem State.sendMode_xl (s : State)  : (s.sendMode).xl = s.xl := rfl
@[simp] theorem State.sendMode_yl (s : State)  : (s.sendMode).yl = s.yl := rfl
@[simp] theorem State.sendMode_xh (s : State)  : (s.sendMode).xh = s.xh := rfl
@[simp] theorem State.sendMode_yh (s : State)  : (s.sendMode).yh = s.yh := rfl
@[simp] theorem State.sendMode_dx (s : State)  : (s.sendMode).dx = s.dx := rfl
@[simp] theorem State.sendMode_dy (s : State)  : (s.sendMode).dy = s.dy := rfl
@[simp] theorem State.sendMode_aspectEn (s : State)  : (s.sendMode).aspectEn = s.aspectEn := rfl
@[simp] theorem State.sendMode_aspect (s : State)  : (s.sendMode).aspect = s.aspect := rfl
@[simp] theorem State.sendMode_pal (s : State)  : (s.sendMode).pal = s.pal := rfl
@[simp] theorem State.sendMode_glyph (s : State)  : (s.sendMode).glyph = s.glyph := rfl
@[simp] theorem State.sendMode_down (s : State)  : (s.sendMode).down = s.down := rfl
@[simp] theorem State.sendMode_pressed (s : State)  : (s.sendMode).pressed = s.pressed := rfl
@[simp] theorem State.sendMode_mx (s : State)  : (s.sendMode).mx = s.mx := rfl
@[simp] theorem State.sendMode_my (s : State)  : (s.sendMode).my = s.my := rfl
@[simp] theorem State.sendMode_text (s : State)  : (s.sendMode).text = s.text := rfl
@[simp] theorem State.sendMode_seed (s : State)  : (s.sendMode).seed = s.seed := rfl
@[simp] theorem State.sendMode_quit (s : State)  : (s.sendMode).quit = s.quit := rfl
@[simp] theorem State.sendMode_cbEn (s : State)  : (s.sendMode).cbEn = s.cbEn := rfl
@[simp] theorem State.sendMode_err (s : State)  : (s.sendMode).err = s.err := rfl
@[simp] theorem State.sendMode_errcmd (s : State)  : (s.sendMode).errcmd = s.errcmd := rfl
@[simp] theorem State.sendMode_lastt (s : State)  : (s.sendMode).lastt = s.lastt := rfl
@[simp] theorem State.sendMode_evq (s : State)  : (s.sendMode).evq = s.evq := rfl
@[simp] theorem State.sendMode_opened (s : State)  : (s.sendMode).opened = s.opened := rfl
@[simp] theorem State.sendMode_cmdPort (s : State)  : (s.sendMode).cmdPort = s.cmdPort := rfl
@[simp] theorem State.sendMode_rspPort (s : State)  : (s.sendMode).rspPort = s.rspPort := rfl
@[simp] theorem State.sendMode_cbPort (s : State)  : (s.sendMode).cbPort = s.cbPort := rfl
@[simp] theorem State.sendMode_now (s : State)  : (s.sendMode).now = s.now := rfl
@[simp] theorem State.sendMode_devices (s : State)  : (s.sendMode).devices = s.devices := rfl
@[simp] theorem State.sendMode_turns (s : State)  : (s.sendMode).turns = s.turns := rfl
@[simp] theorem State.sendMode_draws (s : State)  : (s.sendMode).draws = s.draws := rfl

/-! ### advance -/

@[simp] theorem State.advance_params (s : State)  : (s.advance).params = s.params := rfl
@[simp] theorem State.advance_phase (s : State)  : (s.advance).phase = s.phase := rfl
@[simp] theorem State.advance_w (s : State)  : (s.advance).w = s.w := rfl
@[simp] theorem State.advance_h (s : State)  : (s.advance).h = s.h := rfl
@[simp] theorem State.advance_fb (s : State)  : (s.advance).fb = s.fb := rfl
@[simp] theorem State.advance_xl (s : State)  : (s.advance).xl = s.xl := rfl
@[simp] theorem State.advance_yl (s : State)  : (s.advance).yl = s.yl := rfl
@[simp] theorem State.advance_xh (s : State)  : (s.advance).xh = s.xh := rfl
@[simp] theorem State.advance_yh (s : State)  : (s.advance).yh = s.yh := rfl
@[simp] theorem State.advance_dx (s : State)  : (s.advance).dx = s.dx := rfl
@[simp] theorem State.advance_dy (s : State)  : (s.advance).dy = s.dy := rfl
@[simp] theorem State.advance_aspectEn (s : State)  : (s.advance).aspectEn = s.aspectEn := rfl
@[simp] theorem State.advance_aspect (s : State)  : (s.advance).aspect = s.aspect := rfl
@[simp] theorem State.advance_pal (s : State)  : (s.advance).pal = s.pal := rfl
@[simp] theorem State.advance_glyph (s : State)  : (s.advance).glyph = s.glyph := rfl
@[simp] theorem State.advance_down (s : State)  : (s.advance).down = s.down := rfl
@[simp] theorem State.advance_pressed (s : State)  : (s.advance).pressed = s.pressed := rfl
@[simp] theorem State.advance_mx (s : State)  : (s.advance).mx = s.mx := rfl
@[simp] theorem State.advance_my (s : State)  : (s.advance).my = s.my := rfl
@[simp] theorem State.advance_text (s : State)  : (s.advance).text = s.text := rfl
@[simp] theorem State.advance_quit (s : State)  : (s.advance).quit = s.quit := rfl
@[simp] theorem State.advance_cbEn (s : State)  : (s.advance).cbEn = s.cbEn := rfl
@[simp] theorem State.advance_err (s : State)  : (s.advance).err = s.err := rfl
@[simp] theorem State.advance_errcmd (s : State)  : (s.advance).errcmd = s.errcmd := rfl
@[simp] theorem State.advance_lastt (s : State)  : (s.advance).lastt = s.lastt := rfl
@[simp] theorem State.advance_evq (s : State)  : (s.advance).evq = s.evq := rfl
@[simp] theorem State.advance_opened (s : State)  : (s.advance).opened = s.opened := rfl
@[simp] theorem State.advance_cmdPort (s : State)  : (s.advance).cmdPort = s.cmdPort := rfl
@[simp] theorem State.advance_rspPort (s : State)  : (s.advance).rspPort = s.rspPort := rfl
@[simp] theorem State.advance_dispPort (s : State)  : (s.advance).dispPort = s.dispPort := rfl
@[simp] theorem State.advance_cbPort (s : State)  : (s.advance).cbPort = s.cbPort := rfl
@[simp] theorem State.advance_now (s : State)  : (s.advance).now = s.now := rfl
@[simp] theorem State.advance_devices (s : State)  : (s.advance).devices = s.devices := rfl
@[simp] theorem State.advance_turns (s : State)  : (s.advance).turns = s.turns := rfl
@[simp] theorem State.advance_draws (s : State)  : (s.advance).draws = s.draws := rfl

/-! ### drawFrom -/

@[simp] theorem State.drawFrom_params (s : State) (lo : Int) (n : Nat) : (s.drawFrom lo n).params = s.params := rfl
@[simp] theorem State.drawFrom_phase (s : State) (lo : Int) (n : Nat) : (s.drawFrom lo n).phase = s.phase := rfl
@[simp] theorem State.drawFrom_w (s : State) (lo : Int) (n : Nat) : (s.drawFrom lo n).w = s.w := rfl
@[simp] theorem State.drawFrom_h (s : State) (lo : Int) (n : Nat) : (s.drawFrom lo n).h = s.h := rfl
@[simp] theorem State.drawFrom_fb (s : State) (lo : Int) (n : Nat) : (s.drawFrom lo n).fb = s.fb := rfl
@[simp] theorem State.drawFrom_xl (s : State) (lo : Int) (n : Nat) : (s.drawFrom lo n).xl = s.xl := rfl
@[simp] theorem State.drawFrom_yl (s : State) (lo : Int) (n : Nat) : (s.drawFrom lo n).yl = s.yl := rfl
@[simp] theorem State.drawFrom_xh (s : State) (lo : Int) (n : Nat) : (s.drawFrom lo n).xh = s.xh := rfl
@[simp] theorem State.drawFrom_yh (s : State) (lo : Int) (n : Nat) : (s.drawFrom lo n).yh = s.yh := rfl
@[simp] theorem State.drawFrom_dx (s : State) (lo : Int) (n : Nat) : (s.drawFrom lo n).dx = s.dx := rfl
@[simp] theorem State.drawFrom_dy (s : State) (lo : Int) (n : Nat) : (s.drawFrom lo n).dy = s.dy := rfl
@[simp] theorem State.drawFrom_aspectEn (s : State) (lo : Int) (n : Nat) : (s.drawFrom lo n).aspectEn = s.aspectEn := rfl
@[simp] theorem State.drawFrom_aspect (s : State) (lo : Int) (n : Nat) : (s.drawFrom lo n).aspect = s.aspect := rfl
@[simp] theorem State.drawFrom_pal (s : State) (lo : Int) (n : Nat) : (s.drawFrom lo n).pal = s.pal := rfl
@[simp] theorem State.drawFrom_glyph (s : State) (lo : Int) (n : Nat) : (s.drawFrom lo n).glyph = s.glyph := rfl
@[simp] theorem State.drawFrom_down (s : State) (lo : Int) (n : Nat) : (s.drawFrom lo n).down = s.down := rfl
@[simp] theorem State.drawFrom_pressed (s : State) (lo : Int) (n : Nat) : (s.drawFrom lo n).pressed = s.pressed := rfl
@[simp] theorem State.drawFrom_mx (s : State) (lo : Int) (n : Nat) : (s.drawFrom lo n).mx = s.mx := rfl
@[simp] theorem State.drawFrom_my (s : State) (lo : Int) (n : Nat) : (s.drawFrom lo n).my = s.my := rfl
@[simp] theorem State.drawFrom_text (s : State) (lo : Int) (n : Nat) : (s.drawFrom lo n).text = s.text := rfl
@[simp] theorem State.drawFrom_quit (s : State) (lo : Int) (n : Nat) : (s.drawFrom lo n).quit = s.quit := rfl
@[simp] theorem State.drawFrom_cbEn (s : State) (lo : Int) (n : Nat) : (s.drawFrom lo n).cbEn = s.cbEn := rfl
@[simp] theorem State.drawFrom_err (s : State) (lo : Int) (n : Nat) : (s.drawFrom lo n).err = s.err := rfl
@[simp] theorem State.drawFrom_errcmd (s : State) (lo : Int) (n : Nat) : (s.drawFrom lo n).errcmd = s.errcmd := rfl
@[simp] theorem State.drawFrom_lastt (s : State) (lo : Int) (n : Nat) : (s.drawFrom lo n).lastt = s.lastt := rfl
@[simp] theorem State.drawFrom_evq (s : State) (lo : Int) (n : Nat) : (s.drawFrom lo n).evq = s.evq := rfl
@[simp] theorem State.drawFrom_opened (s : State) (lo : Int) (n : Nat) : (s.drawFrom lo n).opened = s.opened := rfl
@[simp] theorem State.drawFrom_cmdPort (s : State) (lo : Int) (n : Nat) : (s.drawFrom lo n).cmdPort = s.cmdPort := rfl
@[simp] theorem State.drawFrom_dispPort (s : State) (lo : Int) (n : Nat) : (s.drawFrom lo n).dispPort = s.dispPort := rfl
@[simp] theorem State.drawFrom_cbPort (s : State) (lo : Int) (n : Nat) : (s.drawFrom lo n).cbPort = s.cbPort := rfl
@[simp] theorem State.drawFrom_now (s : State) (lo : Int) (n : Nat) : (s.drawFrom lo n).now = s.now := rfl
@[simp] theorem State.drawFrom_devices (s : State) (lo : Int) (n : Nat) : (s.drawFrom lo n).devices = s.devices := rfl
@[simp] theorem State.drawFrom_turns (s : State) (lo : Int) (n : Nat) : (s.drawFrom lo n).turns = s.turns := rfl
@[simp] theorem State.drawFrom_draws (s : State) (lo : Int) (n : Nat) : (s.drawFrom lo n).draws = s.draws := rfl

/-! ### rescan -/

@[simp] theorem State.rescan_params (s : State)  : (s.rescan).params = s.params := rfl
@[simp] theorem State.rescan_phase (s : State)  : (s.rescan).phase = s.phase := rfl
@[simp] theorem State.rescan_w (s : State)  : (s.rescan).w = s.w := rfl
@[simp] theorem State.rescan_h (s : State)  : (s.rescan).h = s.h := rfl
@[simp] theorem State.rescan_fb (s : State)  : (s.rescan).fb = s.fb := rfl
@[simp] theorem State.rescan_xl (s : State)  : (s.rescan).xl = s.xl := rfl
@[simp] theorem State.rescan_yl (s : State)  : (s.rescan).yl = s.yl := rfl
@[simp] theorem State.rescan_xh (s : State)  : (s.rescan).xh = s.xh := rfl
@[simp] theorem State.rescan_yh (s : State)  : (s.rescan).yh = s.yh := rfl
@[simp] theorem State.rescan_dx (s : State)  : (s.rescan).dx = s.dx := rfl
@[simp] theorem State.rescan_dy (s : State)  : (s.rescan).dy = s.dy := rfl
@[simp] theorem State.rescan_aspectEn (s : State)  : (s.rescan).aspectEn = s.aspectEn := rfl
@[simp] theorem State.rescan_aspect (s : State)  : (s.rescan).aspect = s.aspect := rfl
@[simp] theorem State.rescan_pal (s : State)  : (s.rescan).pal = s.pal := rfl
@[simp] theorem State.rescan_glyph (s : State)  : (s.rescan).glyph = s.glyph := rfl
@[simp] theorem State.rescan_down (s : State)  : (s.rescan).down = s.down := rfl
@[simp] theorem State.rescan_pressed (s : State)  : (s.rescan).pressed = s.pressed := rfl
@[simp] theorem State.rescan_mx (s : State)  : (s.rescan).mx = s.mx := rfl
@[simp] theorem State.rescan_my (s : State)  : (s.rescan).my = s.my := rfl
@[simp] theorem State.rescan_text (s : State)  : (s.rescan).text = s.text := rfl
@[simp] theorem State.rescan_seed (s : State)  : (s.rescan).seed = s.seed := rfl
@[simp] theorem State.rescan_quit (s : State)  : (s.rescan).quit = s.quit := rfl
@[simp] theorem State.rescan_cbEn (s : State)  : (s.rescan).cbEn = s.cbEn := rfl
@[simp] theorem State.rescan_err (s : State)  : (s.rescan).err = s.err := rfl
@[simp] theorem State.rescan_errcmd (s : State)  : (s.rescan).errcmd = s.errcmd := rfl
@[simp] theorem State.rescan_lastt (s : State)  : (s.rescan).lastt = s.lastt := rfl
@[simp] theorem State.rescan_evq (s : State)  : (s.rescan).evq = s.evq := rfl
@[simp] theorem State.rescan_cmdPort (s : State)  : (s.rescan).cmdPort = s.cmdPort := rfl
@[simp] theorem State.rescan_rspPort (s : State)  : (s.rescan).rspPort = s.rspPort := rfl
@[simp] theorem State.rescan_dispPort (s : State)  : (s.rescan).dispPort = s.dispPort := rfl
@[simp] theorem State.rescan_cbPort (s : State)  : (s.rescan).cbPort = s.cbPort := rfl
@[simp] theorem State.rescan_now (s : State)  : (s.rescan).now = s.now := rfl
@[simp] theorem State.rescan_devices (s : State)  : (s.rescan).devices = s.devices := rfl
@[simp] theorem State.rescan_turns (s : State)  : (s.rescan).turns = s.turns := rfl
@[simp] theorem State.rescan_draws (s : State)  : (s.rescan).draws = s.draws := rfl

/-! ### releaseButton -/

@[simp] theorem State.releaseButton_params (s : State) (n : Button) : (s.releaseButton n).params = s.params := rfl
@[simp] theorem State.releaseButton_phase (s : State) (n : Button) : (s.releaseButton n).phase = s.phase := rfl
@[simp] theorem State.releaseButton_w (s : State) (n : Button) : (s.releaseButton n).w = s.w := rfl
@[simp] theorem State.releaseButton_h (s : State) (n : Button) : (s.releaseButton n).h = s.h := rfl
@[simp] theorem State.releaseButton_fb (s : State) (n : Button) : (s.releaseButton n).fb = s.fb := rfl
@[simp] theorem State.releaseButton_xl (s : State) (n : Button) : (s.releaseButton n).xl = s.xl := rfl
@[simp] theorem State.releaseButton_yl (s : State) (n : Button) : (s.releaseButton n).yl = s.yl := rfl
@[simp] theorem State.releaseButton_xh (s : State) (n : Button) : (s.releaseButton n).xh = s.xh := rfl
@[simp] theorem State.releaseButton_yh (s : State) (n : Button) : (s.releaseButton n).yh = s.yh := rfl
@[simp] theorem State.releaseButton_dx (s : State) (n : Button) : (s.releaseButton n).dx = s.dx := rfl
@[simp] theorem State.releaseButton_dy (s : State) (n : Button) : (s.releaseButton n).dy = s.dy := rfl
@[simp] theorem State.releaseButton_aspectEn (s : State) (n : Button) : (s.releaseButton n).aspectEn = s.aspectEn := rfl
@[simp] theorem State.releaseButton_aspect (s : State) (n : Button) : (s.releaseButton n).aspect = s.aspect := rfl
@[simp] theorem State.releaseButton_pal (s : State) (n : Button) : (s.releaseButton n).pal = s.pal := rfl
@[simp] theorem State.releaseButton_glyph (s : State) (n : Button) : (s.releaseButton n).glyph = s.glyph := rfl
@[simp] theorem State.releaseButton_pressed (s : State) (n : Button) : (s.releaseButton n).pressed = s.pressed := rfl
@[simp] theorem State.releaseButton_mx (s : State) (n : Button) : (s.releaseButton n).mx = s.mx := rfl
@[simp] theorem State.releaseButton_my (s : State) (n : Button) : (s.releaseButton n).my = s.my := rfl
@[simp] theorem State.releaseButton_text (s : State) (n : Button) : (s.releaseButton n).text = s.text := rfl
@[simp] theorem State.releaseButton_seed (s : State) (n : Button) : (s.releaseButton n).seed = s.seed := rfl
@[simp] theorem State.releaseButton_quit (s : State) (n : Button) : (s.releaseButton n).quit = s.quit := rfl
@[simp] theorem State.releaseButton_cbEn (s : State) (n : Button) : (s.releaseButton n).cbEn = s.cbEn := rfl
@[simp] theorem State.releaseButton_err (s : State) (n : Button) : (s.releaseButton n).err = s.err := rfl
@[simp] theorem State.releaseButton_errcmd (s : State) (n : Button) : (s.releaseButton n).errcmd = s.errcmd := rfl
@[simp] theorem State.releaseButton_lastt (s : State) (n : Button) : (s.releaseButton n).lastt = s.lastt := rfl
@[simp] theorem State.releaseButton_evq (s : State) (n : Button) : (s.releaseButton n).evq = s.evq := rfl
@[simp] theorem State.releaseButton_opened (s : State) (n : Button) : (s.releaseButton n).opened = s.opened := rfl
@[simp] theorem State.releaseButton_cmdPort (s : State) (n : Button) : (s.releaseButton n).cmdPort = s.cmdPort := rfl
@[simp] theorem State.releaseButton_rspPort (s : State) (n : Button) : (s.releaseButton n).rspPort = s.rspPort := rfl
@[simp] theorem State.releaseButton_dispPort (s : State) (n : Button) : (s.releaseButton n).dispPort = s.dispPort := rfl
@[simp] theorem State.releaseButton_cbPort (s : State) (n : Button) : (s.releaseButton n).cbPort = s.cbPort := rfl
@[simp] theorem State.releaseButton_now (s : State) (n : Button) : (s.releaseButton n).now = s.now := rfl
@[simp] theorem State.releaseButton_devices (s : State) (n : Button) : (s.releaseButton n).devices = s.devices := rfl
@[simp] theorem State.releaseButton_turns (s : State) (n : Button) : (s.releaseButton n).turns = s.turns := rfl
@[simp] theorem State.releaseButton_draws (s : State) (n : Button) : (s.releaseButton n).draws = s.draws := rfl

/-! ### pressButton -/

@[simp] theorem State.pressButton_params (s : State) (n : Button) : (s.pressButton n).params = s.params := by unfold State.pressButton; split <;> rfl
@[simp] theorem State.pressButton_phase (s : State) (n : Button) : (s.pressButton n).phase = s.phase := by unfold State.pressButton; split <;> rfl
@[simp] theorem State.pressButton_w (s : State) (n : Button) : (s.pressButton n).w = s.w := by unfold State.pressButton; split <;> rfl
@[simp] theorem State.pressButton_h (s : State) (n : Button) : (s.pressButton n).h = s.h := by unfold State.pressButton; split <;> rfl
@[simp] theorem State.pressButton_fb (s : State) (n : Button) : (s.pressButton n).fb = s.fb := by unfold State.pressButton; split <;> rfl
@[simp] theorem State.pressButton_xl (s : State) (n : Button) : (s.pressButton n).xl = s.xl := by unfold State.pressButton; split <;> rfl
@[simp] theorem State.pressButton_yl (s : State) (n : Button) : (s.pressButton n).yl = s.yl := by unfold State.pressButton; split <;> rfl
@[simp] theorem State.pressButton_xh (s : State) (n : Button) : (s.pressButton n).xh = s.xh := by unfold State.pressButton; split <;> rfl
@[simp] theorem State.pressButton_yh (s : State) (n : Button) : (s.pressButton n).yh = s.yh := by unfold State.pressButton; split <;> rfl
@[simp] theorem State.pressButton_dx (s : State) (n : Button) : (s.pressButton n).dx = s.dx := by unfold State.pressButton; split <;> rfl
@[simp] theorem State.pressButton_dy (s : State) (n : Button) : (s.pressButton n).dy = s.dy := by unfold State.pressButton; split <;> rfl
@[simp] theorem State.pressButton_aspectEn (s : State) (n : Button) : (s.pressButton n).aspectEn = s.aspectEn := by unfold State.pressButton; split <;> rfl
@[simp] theorem State.pressButton_aspect (s : State) (n : Button) : (s.pressButton n).aspect = s.aspect := by unfold State.pressButton; split <;> rfl
@[simp] theorem State.pressButton_pal (s : State) (n : Button) : (s.pressButton n).pal = s.pal := by unfold State.pressButton; split <;> rfl
@[simp] theorem State.pressButton_glyph (s : State) (n : Button) : (s.pressButton n).glyph = s.glyph := by unfold State.pressButton; split <;> rfl
@[simp] theorem State.pressButton_mx (s : State) (n : Button) : (s.pressButton n).mx = s.mx := by unfold State.pressButton; split <;> rfl
@[simp] theorem State.pressButton_my (s : State) (n : Button) : (s.pressButton n).my = s.my := by unfold State.pressButton; split <;> rfl
@[simp] theorem State.pressButton_text (s : State) (n : Button) : (s.pressButton n).text = s.text := by unfold State.pressButton; split <;> rfl
@[simp] theorem State.pressButton_seed (s : State) (n : Button) : (s.pressButton n).seed = s.seed := by unfold State.pressButton; split <;> rfl
@[simp] theorem State.pressButton_quit (s : State) (n : Button) : (s.pressButton n).quit = s.quit := by unfold State.pressButton; split <;> rfl
@[simp] theorem State.pressButton_cbEn (s : State) (n : Button) : (s.pressButton n).cbEn = s.cbEn := by unfold State.pressButton; split <;> rfl
@[simp] theorem State.pressButton_err (s : State) (n : Button) : (s.pressButton n).err = s.err := by unfold State.pressButton; split <;> rfl
@[simp] theorem State.pressButton_errcmd (s : State) (n : Button) : (s.pressButton n).errcmd = s.errcmd := by unfold State.pressButton; split <;> rfl
@[simp] theorem State.pressButton_lastt (s : State) (n : Button) : (s.pressButton n).lastt = s.lastt := by unfold State.pressButton; split <;> rfl
@[simp] theorem State.pressButton_evq (s : State) (n : Button) : (s.pressButton n).evq = s.evq := by unfold State.pressButton; split <;> rfl
@[simp] theorem State.pressButton_opened (s : State) (n : Button) : (s.pressButton n).opened = s.opened := by unfold State.pressButton; split <;> rfl
@[simp] theorem State.pressButton_cmdPort (s : State) (n : Button) : (s.pressButton n).cmdPort = s.cmdPort := by unfold State.pressButton; split <;> rfl
@[simp] theorem State.pressButton_rspPort (s : State) (n : Button) : (s.pressButton n).rspPort = s.rspPort := by unfold State.pressButton; split <;> rfl
@[simp] theorem State.pressButton_dispPort (s : State) (n : Button) : (s.pressButton n).dispPort = s.dispPort := by unfold State.pressButton; split <;> rfl
@[simp] theorem State.pressButton_cbPort (s : State) (n : Button) : (s.pressButton n).cbPort = s.cbPort := by unfold State.pressButton; split <;> rfl
@[simp] theorem State.pressButton_now (s : State) (n : Button) : (s.pressButton n).now = s.now := by unfold State.pressButton; split <;> rfl
@[simp] theorem State.pressButton_devices (s : State) (n : Button) : (s.pressButton n).devices = s.devices := by unfold State.pressButton; split <;> rfl
@[simp] theorem State.pressButton_turns (s : State) (n : Button) : (s.pressButton n).turns = s.turns := by unfold State.pressButton; split <;> rfl
@[simp] theorem State.pressButton_draws (s : State) (n : Button) : (s.pressButton n).draws = s.draws := by unfold State.pressButton; split <;> rfl

/-! ### appendText -/

@[simp] theorem State.appendText_params (s : State) (v : Byte) : (s.appendText v).params = s.params := by unfold State.appendText; split <;> rfl
@[simp] theorem State.appendText_phase (s : State) (v : Byte) : (s.appendText v).phase = s.phase := by unfold State.appendText; split <;> rfl
@[simp] theorem State.appendText_w (s : State) (v : Byte) : (s.appendText v).w = s.w := by unfold State.appendText; split <;> rfl
@[simp] theorem State.appendText_h (s : State) (v : Byte) : (s.appendText v).h = s.h := by unfold State.appendText; split <;> rfl
@[simp] theorem State.appendText_fb (s : State) (v : Byte) : (s.appendText v).fb = s.fb := by unfold State.appendText; split <;> rfl
@[simp] theorem State.appendText_xl (s : State) (v : Byte) : (s.appendText v).xl = s.xl := by unfold State.appendText; split <;> rfl
@[simp] theorem State.appendText_yl (s : State) (v : Byte) : (s.appendText v).yl = s.yl := by unfold State.appendText; split <;> rfl
@[simp] theorem State.appendText_xh (s : State) (v : Byte) : (s.appendText v).xh = s.xh := by unfold State.appendText; split <;> rfl
@[simp] theorem State.appendText_yh (s : State) (v : Byte) : (s.appendText v).yh = s.yh := by unfold State.appendText; split <;> rfl
@[simp] theorem State.appendText_dx (s : State) (v : Byte) : (s.appendText v).dx = s.dx := by unfold State.appendText; split <;> rfl
@[simp] theorem State.appendText_dy (s : State) (v : Byte) : (s.appendText v).dy = s.dy := by unfold State.appendText; split <;> rfl
@[simp] theorem State.appendText_aspectEn (s : State) (v : Byte) : (s.appendText v).aspectEn = s.aspectEn := by unfold State.appendText; split <;> rfl
@[simp] theorem State.appendText_aspect (s : State) (v : Byte) : (s.appendText v).aspect = s.aspect := by unfold State.appendText; split <;> rfl
@[simp] theorem State.appendText_pal (s : State) (v : Byte) : (s.appendText v).pal = s.pal := by unfold State.appendText; split <;> rfl
@[simp] theorem State.appendText_glyph (s : State) (v : Byte) : (s.appendText v).glyph = s.glyph := by unfold State.appendText; split <;> rfl
@[simp] theorem State.appendText_down (s : State) (v : Byte) : (s.appendText v).down = s.down := by unfold State.appendText; split <;> rfl
@[simp] theorem State.appendText_pressed (s : State) (v : Byte) : (s.appendText v).pressed = s.pressed := by unfold State.appendText; split <;> rfl
@[simp] theorem State.appendText_mx (s : State) (v : Byte) : (s.appendText v).mx = s.mx := by unfold State.appendText; split <;> rfl
@[simp] theorem State.appendText_my (s : State) (v : Byte) : (s.appendText v).my = s.my := by unfold State.appendText; split <;> rfl
@[simp] theorem State.appendText_seed (s : State) (v : Byte) : (s.appendText v).seed = s.seed := by unfold State.appendText; split <;> rfl
@[simp] theorem State.appendText_quit (s : State) (v : Byte) : (s.appendText v).quit = s.quit := by unfold State.appendText; split <;> rfl
@[simp] theorem State.appendText_cbEn (s : State) (v : Byte) : (s.appendText v).cbEn = s.cbEn := by unfold State.appendText; split <;> rfl
@[simp] theorem State.appendText_err (s : State) (v : Byte) : (s.appendText v).err = s.err := by unfold State.appendText; split <;> rfl
@[simp] theorem State.appendText_errcmd (s : State) (v : Byte) : (s.appendText v).errcmd = s.errcmd := by unfold State.appendText; split <;> rfl
@[simp] theorem State.appendText_lastt (s : State) (v : Byte) : (s.appendText v).lastt = s.lastt := by unfold State.appendText; split <;> rfl
@[simp] theorem State.appendText_evq (s : State) (v : Byte) : (s.appendText v).evq = s.evq := by unfold State.appendText; split <;> rfl
@[simp] theorem State.appendText_opened (s : State) (v : Byte) : (s.appendText v).opened = s.opened := by unfold State.appendText; split <;> rfl
@[simp] theorem State.appendText_cmdPort (s : State) (v : Byte) : (s.appendText v).cmdPort = s.cmdPort := by unfold State.appendText; split <;> rfl
@[simp] theorem State.appendText_rspPort (s : State) (v : Byte) : (s.appendText v).rspPort = s.rspPort := by unfold State.appendText; split <;> rfl
@[simp] theorem State.appendText_dispPort (s : State) (v : Byte) : (s.appendText v).dispPort = s.dispPort := by unfold State.appendText; split <;> rfl
@[simp] theorem State.appendText_cbPort (s : State) (v : Byte) : (s.appendText v).cbPort = s.cbPort := by unfold State.appendText; split <;> rfl
@[simp] theorem State.appendText_now (s : State) (v : Byte) : (s.appendText v).now = s.now := by unfold State.appendText; split <;> rfl
@[simp] theorem State.appendText_devices (s : State) (v : Byte) : (s.appendText v).devices = s.devices := by unfold State.appendText; split <;> rfl
@[simp] theorem State.appendText_turns (s : State) (v : Byte) : (s.appendText v).turns = s.turns := by unfold State.appendText; split <;> rfl
@[simp] theorem State.appendText_draws (s : State) (v : Byte) : (s.appendText v).draws = s.draws := by unfold State.appendText; split <;> rfl


end Sys2Proof.Machine
end

