-- ==== Sys2Proof/Laws/Draw.lean ====
section
/-! SUPPORT. What the checked pixel write, a sequence of them and CLEAR's fill do to the framebuffer (R42, R44, R96). -/

namespace Sys2Proof.Machine

theorem State.inGrid_iff (s : State) (x y : Int) :
    s.inGrid x y = true ↔ 0 ≤ x ∧ x < s.w.toNat ∧ 0 ≤ y ∧ y < s.h.toNat := by
  unfold State.inGrid
  exact decide_eq_true_iff

theorem State.inClip_iff (s : State) (x y : Int) :
    s.inClip x y = true ↔ s.xl.toInt ≤ x ∧ x ≤ s.xh.toInt ∧ s.yl.toInt ≤ y ∧ y ≤ s.yh.toInt := by
  unfold State.inClip
  exact decide_eq_true_iff

/-- When a pixel write lands, and where (R42). -/
theorem State.landing_eq_some_iff (s : State) (x y : Int) (a : Nat) :
    s.landing x y = some a ↔
      s.inGrid (x + s.dx.toInt) (y + s.dy.toInt) = true ∧ s.inClip (x + s.dx.toInt) (y + s.dy.toInt) = true
        ∧ s.cellIndex (x + s.dx.toInt) (y + s.dy.toInt) = a := by
  simp [State.landing, and_assoc]

/-- A coordinate pair of the grid is an index below `W * H` (R41). -/
theorem State.cellIndex_lt (s : State) (x y : Int) (h : s.inGrid x y = true) :
    s.cellIndex x y < s.w.toNat * s.h.toNat := by
  obtain ⟨h1, h2, h3, h4⟩ := (s.inGrid_iff x y).mp h
  have hx : x.toNat < s.w.toNat := by omega
  have hy : y.toNat + 1 ≤ s.h.toNat := by omega
  have := Nat.mul_le_mul_right s.w.toNat hy
  rw [State.cellIndex, Nat.mul_comm s.w.toNat]
  rw [Nat.add_mul] at this
  omega

/-- Different coordinate pairs of the grid have different indices (R41). -/
theorem State.cellIndex_inj (s : State) (x y x' y' : Int) (h : s.inGrid x y = true) (h' : s.inGrid x' y' = true)
    (e : s.cellIndex x y = s.cellIndex x' y') : x = x' ∧ y = y' := by
  obtain ⟨h1, h2, h3, h4⟩ := (s.inGrid_iff x y).mp h
  obtain ⟨k1, k2, k3, k4⟩ := (s.inGrid_iff x' y').mp h'
  have hx : x.toNat < s.w.toNat := by omega
  have hx' : x'.toNat < s.w.toNat := by omega
  simp only [State.cellIndex] at e
  have m1 : x.toNat = x'.toNat := by
    have := congrArg (· % s.w.toNat) e
    simpa [Nat.mul_add_mod_of_lt, Nat.mod_eq_of_lt, hx, hx', Nat.add_comm, Nat.add_mul_mod_self_right] using this
  have m2 : y.toNat * s.w.toNat = y'.toNat * s.w.toNat := by omega
  have m3 : y.toNat = y'.toNat := Nat.eq_of_mul_eq_mul_right (by omega) m2
  omega

/-- The cell an index names after the memory was replaced. -/
theorem State.setFb_cell (s : State) (m : Memory) (a : Nat) :
    (s.setFb m).cell a = (m.read? a).getD (Config.freeCell s.draws a) := rfl

/-- The cells after a memory write. -/
theorem State.setFb_write_cell (s : State) (m : Memory) (a b : Nat) (v : Byte) :
    (s.setFb (m.write a v)).cell b = if b = a then v else (s.setFb m).cell b := by
  simp only [State.setFb_cell, Memory.read?_write]
  split <;> simp

/-- One `pset` (R42): the cell it lands in holds the colour byte, every other cell is unchanged. -/
theorem State.pset_cell (s : State) (c : Byte) (x y : Int) (a : Nat) :
    (s.pset c x y).cell a = if s.landing x y = some a then c else s.cell a := by
  have hs : s.cell a = (s.setFb s.fb).cell a := rfl
  unfold State.pset State.plot
  cases h : s.landing x y with
  | none => simp [hs]
  | some b => simp [State.setFb_write_cell, hs, eq_comm]

/-- The cells after a sequence of `pset` calls starting from any memory: a cell none of them lands in is unchanged. -/
theorem State.foldl_plot_cell_of_none (s : State) (ps : List Pixel) (m : Memory) (a : Nat)
    (h : ∀ p ∈ ps, s.landing p.x p.y ≠ some a) :
    (s.setFb (ps.foldl s.plot m)).cell a = (s.setFb m).cell a := by
  induction ps generalizing m with
  | nil => rfl
  | cons p ps ih =>
    rw [List.foldl_cons, ih _ fun q hq => h q (List.mem_cons_of_mem _ hq)]
    have hp := h p List.mem_cons_self
    unfold State.plot
    cases e : s.landing p.x p.y with
    | none => rfl
    | some b =>
      simp only [State.setFb_write_cell]
      rw [if_neg]
      rintro rfl
      exact hp e

/-- A cell some call lands in, all such calls writing `c`, holds `c`. -/
theorem State.foldl_plot_cell_of_some (s : State) (ps : List Pixel) (m : Memory) (a : Nat) (c : Byte)
    (h : ∃ p ∈ ps, s.landing p.x p.y = some a) (hc : ∀ p ∈ ps, s.landing p.x p.y = some a → p.c = c) :
    (s.setFb (ps.foldl s.plot m)).cell a = c := by
  induction ps generalizing m with
  | nil => simp at h
  | cons p ps ih =>
    rw [List.foldl_cons]
    by_cases hr : ∃ q ∈ ps, s.landing q.x q.y = some a
    · exact ih _ hr fun q hq => hc q (List.mem_cons_of_mem _ hq)
    · rw [s.foldl_plot_cell_of_none ps _ a fun q hq e => hr ⟨q, hq, e⟩]
      obtain ⟨q, hq, e⟩ := h
      rcases List.mem_cons.mp hq with rfl | hq
      · simp only [State.plot, e, State.setFb_write_cell, if_true]
        exact hc q List.mem_cons_self e
      · exact absurd ⟨q, hq, e⟩ hr

/-- A cell no call of a drawing lands in is unchanged. -/
theorem State.drawAll_cell_of_none (s : State) (ps : List Pixel) (a : Nat)
    (h : ∀ p ∈ ps, s.landing p.x p.y ≠ some a) : (s.drawAll ps).cell a = s.cell a :=
  s.foldl_plot_cell_of_none ps s.fb a h

/-- A cell the calls of a drawing write one byte to holds that byte. -/
theorem State.drawAll_cell_of_some (s : State) (ps : List Pixel) (a : Nat) (c : Byte)
    (h : ∃ p ∈ ps, s.landing p.x p.y = some a) (hc : ∀ p ∈ ps, s.landing p.x p.y = some a → p.c = c) :
    (s.drawAll ps).cell a = c :=
  s.foldl_plot_cell_of_some ps s.fb a c h hc

/-- Drawing points with one colour: the cells their `pset` calls land in hold it. -/
theorem State.drawPoints_cell_of_some (s : State) (c : Byte) (ps : List (Int × Int)) (a : Nat)
    (h : ∃ p ∈ ps, s.landing p.1 p.2 = some a) : (s.drawPoints c ps).cell a = c := by
  refine s.drawAll_cell_of_some _ a c ?_ ?_
  · obtain ⟨p, hp, e⟩ := h
    exact ⟨_, List.mem_map.mpr ⟨p, hp, rfl⟩, e⟩
  · intro p hp _
    obtain ⟨q, _, rfl⟩ := List.mem_map.mp hp
    rfl

/-- Drawing points: every other cell is unchanged. -/
theorem State.drawPoints_cell_of_none (s : State) (c : Byte) (ps : List (Int × Int)) (a : Nat)
    (h : ∀ p ∈ ps, s.landing p.1 p.2 ≠ some a) : (s.drawPoints c ps).cell a = s.cell a := by
  refine s.drawAll_cell_of_none _ a fun p hp => ?_
  obtain ⟨q, hq, rfl⟩ := List.mem_map.mp hp
  exact h q hq

/-- A drawing is its first `pset`, then the rest (R96): the calls take effect in order. -/
theorem State.drawAll_cons (s : State) (p : Pixel) (ps : List Pixel) :
    s.drawAll (p :: ps) = (s.pset p.c p.x p.y).drawAll ps := rfl

/-- `pset` keeps the canonical form and the grid's addresses. -/
theorem State.plot_wf (s : State) (m : Memory) (p : Pixel) (h : m.wf = true) : (s.plot m p).wf = true := by
  unfold State.plot
  split
  · exact Memory.wf_write _ _ _ h
  · exact h

theorem State.plot_mem (s : State) (m : Memory) (p : Pixel) (h : ∀ c ∈ m, c.1 < s.w.toNat * s.h.toNat) :
    ∀ c ∈ s.plot m p, c.1 < s.w.toNat * s.h.toNat := by
  unfold State.plot
  split
  case h_1 a e =>
    intro c hc
    rcases Memory.mem_write _ _ _ _ hc with rfl | hc
    · obtain ⟨h1, _, rfl⟩ := (s.landing_eq_some_iff _ _ _).mp e
      exact s.cellIndex_lt _ _ h1
    · exact h c hc
  · exact h

theorem State.foldl_plot_wf (s : State) (ps : List Pixel) (m : Memory) (h : m.wf = true) :
    (ps.foldl s.plot m).wf = true := by
  induction ps generalizing m with
  | nil => exact h
  | cons p ps ih => exact ih _ (s.plot_wf m p h)

theorem State.foldl_plot_mem (s : State) (ps : List Pixel) (m : Memory) (h : ∀ c ∈ m, c.1 < s.w.toNat * s.h.toNat) :
    ∀ c ∈ ps.foldl s.plot m, c.1 < s.w.toNat * s.h.toNat := by
  induction ps generalizing m with
  | nil => exact h
  | cons p ps ih => exact ih _ (s.plot_mem m p h)

theorem State.drawAll_wf (s : State) (ps : List Pixel) (h : s.fb.wf = true) : (s.drawAll ps).fb.wf = true :=
  s.foldl_plot_wf ps s.fb h

theorem State.pset_wf (s : State) (c : Byte) (x y : Int) (h : s.fb.wf = true) : (s.pset c x y).fb.wf = true :=
  s.plot_wf s.fb ⟨c, x, y⟩ h

end Sys2Proof.Machine
end

