-- ==== Sys2Proof/Laws/Ids.lean ====
section
/-! SUPPORT. The open-device set as a strictly rising list of ids (R27, R119): membership, order, and that equal sets
are equal lists. -/

namespace Sys2Proof.Machine

theorem mem_insertId (ids : List Word) (u v : Word) : v ∈ insertId u ids ↔ v = u ∨ v ∈ ids := by
  induction ids with
  | nil => simp [insertId]
  | cons x ids ih =>
    unfold insertId
    split_ifs with h1 h2 <;> simp_all
    tauto

theorem mem_unionIds (ids new : List Word) (v : Word) : v ∈ unionIds ids new ↔ v ∈ ids ∨ v ∈ new := by
  unfold unionIds
  induction new generalizing ids with
  | nil => simp
  | cons x new ih =>
    simp only [List.foldl_cons, ih, mem_insertId, List.mem_cons]
    tauto

/-- Strictly rising, as a statement about pairs. -/
theorem risingIds_iff (ids : List Word) : risingIds ids = true ↔ ids.Pairwise (fun u v => u.toNat < v.toNat) := by
  induction ids with
  | nil => simp [risingIds]
  | cons a m ih =>
    cases m with
    | nil => simp [risingIds]
    | cons b m =>
      rw [risingIds, Bool.and_eq_true, ih, decide_eq_true_eq, List.pairwise_cons (a := a)]
      refine ⟨fun ⟨hab, hm⟩ => ⟨fun c hc => ?_, hm⟩, fun ⟨ha, hm⟩ => ⟨ha b List.mem_cons_self, hm⟩⟩
      rcases List.mem_cons.mp hc with rfl | hc
      · exact hab
      · exact hab.trans ((List.pairwise_cons.mp hm).1 c hc)

theorem pairwise_insertId (ids : List Word) (u : Word) (h : ids.Pairwise (fun u v => u.toNat < v.toNat)) :
    (insertId u ids).Pairwise (fun u v => u.toNat < v.toNat) := by
  induction ids with
  | nil => simp [insertId]
  | cons x ids ih =>
    have ⟨h1, h2⟩ := List.pairwise_cons.mp h
    unfold insertId
    split_ifs with a b
    · refine List.pairwise_cons.mpr ⟨fun y hy => ?_, h⟩
      rcases List.mem_cons.mp hy with rfl | hy
      · exact a
      · exact a.trans (h1 y hy)
    · exact h
    · refine List.pairwise_cons.mpr ⟨fun y hy => ?_, ih h2⟩
      rcases (mem_insertId _ _ _).mp hy with rfl | hy
      · have : y.toNat ≠ x.toNat := fun e => b (BitVec.eq_of_toNat_eq e)
        omega
      · exact h1 y hy

/-- The union stays strictly rising. -/
theorem risingIds_unionIds (ids new : List Word) (h : risingIds ids = true) : risingIds (unionIds ids new) = true := by
  rw [risingIds_iff] at *
  unfold unionIds
  induction new generalizing ids with
  | nil => exact h
  | cons x new ih => exact ih _ (pairwise_insertId _ _ h)

/-- Strictly rising lists with the same members are equal. -/
theorem risingIds_ext (a b : List Word) (ha : risingIds a = true) (hb : risingIds b = true)
    (h : ∀ v, v ∈ a ↔ v ∈ b) : a = b := by
  rw [risingIds_iff] at *
  have nd : ∀ l : List Word, l.Pairwise (fun u v => u.toNat < v.toNat) → l.Nodup :=
    fun l hl => hl.imp fun {a b} hab => by rintro rfl; exact absurd hab (lt_irrefl _)
  exact List.Perm.eq_of_pairwise (fun x y _ _ h1 h2 => absurd h1 (by omega)) ha hb
    ((List.perm_ext_iff_of_nodup (nd _ ha) (nd _ hb)).mpr h)

end Sys2Proof.Machine
end

