-- ==== Sys2Proof/Laws/Points.lean ====
section
/-! SUPPORT. Which points the rasterizer's lists hold (R91 to R94), and that drawing a list of points draws exactly
these (R96). -/

namespace Sys2Proof.Machine

theorem mem_intRange (lo hi x : Int) : x ∈ intRange lo hi ↔ lo ≤ x ∧ x ≤ hi := by
  simp only [intRange, List.mem_map, List.mem_range]
  constructor
  · rintro ⟨k, hk, rfl⟩
    omega
  · rintro ⟨h1, h2⟩
    exact ⟨(x - lo).toNat, by omega, by omega⟩

theorem mem_boxPoints (x1 y1 x2 y2 x y : Int) :
    (x, y) ∈ boxPoints x1 y1 x2 y2 ↔ x1 ≤ x ∧ x ≤ x2 ∧ y1 ≤ y ∧ y ≤ y2 := by
  simp only [boxPoints, List.mem_flatMap, mem_intRange, List.mem_map, Prod.mk.injEq]
  constructor
  · rintro ⟨v, ⟨_, _⟩, u, ⟨_, _⟩, rfl, rfl⟩
    omega
  · rintro ⟨_, _, _, _⟩
    exact ⟨y, by omega, x, by omega, rfl, rfl⟩

theorem ordered_fst (a b : Int) : (ordered a b).1 = min a b := by
  unfold ordered
  split <;> simp <;> omega

theorem ordered_snd (a b : Int) : (ordered a b).2 = max a b := by
  unfold ordered
  split <;> simp <;> omega

/-- The annulus test keeps exactly the offsets between the two squared radii; there are none for a negative one. -/
theorem mem_annulusPoints (cx cy r inner x y : Int) :
    (x, y) ∈ annulusPoints cx cy r inner ↔
      0 ≤ r ∧ inner ≤ (x - cx) * (x - cx) + (y - cy) * (y - cy)
        ∧ (x - cx) * (x - cx) + (y - cy) * (y - cy) ≤ r * r := by
  simp only [annulusPoints, List.mem_flatMap, mem_intRange, List.mem_map, List.mem_filter, Prod.mk.injEq,
    decide_eq_true_eq]
  constructor
  · rintro ⟨v, ⟨_, _⟩, u, ⟨⟨_, _⟩, h1, h2⟩, rfl, rfl⟩
    refine ⟨by omega, ?_, ?_⟩ <;> simpa using (by assumption)
  · rintro ⟨h0, h1, h2⟩
    have ha : -r ≤ x - cx ∧ x - cx ≤ r := by constructor <;> nlinarith [mul_self_nonneg (y - cy)]
    have hb : -r ≤ y - cy ∧ y - cy ≤ r := by constructor <;> nlinarith [mul_self_nonneg (x - cx)]
    exact ⟨y - cy, hb, x - cx, ⟨ha, h1, h2⟩, by omega, by omega⟩

/-- A command that draws a list of points with one colour and answers has drawn exactly the points of the list. -/
theorem State.drewPoints_of_mem (s : State) (c : Byte) (ps : List (Int × Int)) (pts : Int → Int → Prop)
    (h : ∀ x y, (x, y) ∈ ps ↔ pts x y) : DrewPoints s ((s.drawPoints c ps).respond []) c pts := by
  refine ⟨rfl, ?_, ?_, rfl⟩
  · intro x y a hp hl
    exact s.drawPoints_cell_of_some c ps a ⟨(x, y), (h x y).mpr hp, hl⟩
  · intro a ha
    exact s.drawPoints_cell_of_none c ps a fun p hp => ha p.1 p.2 ((h _ _).mp hp)

end Sys2Proof.Machine
end

