-- ==== Sys2Proof/Laws/Steps.lean ====
section
/-! SUPPORT. What a step can do, case by case: whose turn it is (R8), the block's step in each phase (R142), and what
becomes of the words on the command port (R60, R66). -/

namespace Sys2Proof.Machine

/-- What an action comes to. -/
theorem step_eq (s : State) : step s = match nextAction s with
    | .command i t => exec i t
    | .done r => r := rfl

/-- With no turn named, the block acts. -/
theorem nextAction_nil (s : State) (h : s.turns = []) : nextAction s = blockTurn s := by
  simp [nextAction, h]

/-- A named turn is taken off the list and given to its agent. -/
theorem nextAction_cons (s : State) (u : Turn) (us : List Turn) (h : s.turns = u :: us) :
    nextAction s = takeTurn (s.setTurns us) u := by
  simp [nextAction, h]

/-- When the block acts, what it does is its own turn on the state past that turn. -/
theorem nextAction_of_blockActs {s u : State} (h : BlockActs s u) : nextAction s = blockTurn u := by
  rcases h with ⟨h, rfl⟩ | ⟨ts, h, rfl⟩
  · exact nextAction_nil _ h
  · exact nextAction_cons s _ _ h

/-- Using up a turn leaves the phase. -/
theorem BlockActs.phase_eq {s u : State} (h : BlockActs s u) : u.phase = s.phase := by
  rcases h with ⟨_, rfl⟩ | ⟨_, _, rfl⟩ <;> rfl

/-- What a turn of HOST comes to (R60, R183). -/
theorem hostTurn_cases (s : State) (ws : List Word) :
    (atMostOnePacket (s.cmdPort ++ ws) = true ∧ hostTurn s ws = .next (s.setCmdPort (s.cmdPort ++ ws)))
    ∨ (atMostOnePacket (s.cmdPort ++ ws) = false ∧ hostTurn s ws = .refused .secondPacket) := by
  unfold hostTurn
  split_ifs with h
  · exact .inl ⟨h, rfl⟩
  · exact .inr ⟨Bool.eq_false_iff.mpr h, rfl⟩

/-- Behind a whole packet the port holds nothing (R183). -/
theorem rest_eq_nil_of_command {ws rest : List Word} {i : Instr} (h : atMostOnePacket ws = true)
    (hd : decode ws = .command i rest) : rest = [] := by
  obtain ⟨w, us, rfl⟩ : ∃ w us, ws = w :: us := by cases ws <;> simp_all [decode]
  have hl : us.length ≤ (nwField w).toNat := of_decide_eq_true h
  simp only [decode] at hd
  split_ifs at hd
  split at hd
  · cases hd
  · obtain ⟨-, rfl⟩ := Decoded.command.inj hd
    exact List.drop_eq_nil_of_le hl

theorem rest_eq_nil_of_illegal {ws rest : List Word} {w : Word} (h : atMostOnePacket ws = true)
    (hd : decode ws = .illegal w rest) : rest = [] := by
  obtain ⟨v, us, rfl⟩ : ∃ v us, ws = v :: us := by cases ws <;> simp_all [decode]
  have hl : us.length ≤ (nwField v).toNat := of_decide_eq_true h
  simp only [decode] at hd
  split_ifs at hd
  split at hd
  · obtain ⟨-, rfl⟩ := Decoded.illegal.inj hd
    exact List.drop_eq_nil_of_le hl
  · cases hd

theorem takeCommand_incomplete (s : State) (h : decode s.cmdPort = .incomplete) : takeCommand s = .done (.next s) := by
  simp [takeCommand, h]

theorem takeCommand_illegal (s : State) (w : Word) (rest : List Word) (h : decode s.cmdPort = .illegal w rest) :
    takeCommand s = .done (.next ((s.setCmdPort rest).raiseFault .illegal w)) := by
  simp [takeCommand, h]

theorem takeCommand_command (s : State) (i : Instr) (rest : List Word) (h : decode s.cmdPort = .command i rest) :
    takeCommand s = .command i (s.setCmdPort rest) := by
  simp [takeCommand, h]

/-- In the two admitting phases the block takes a command (R143). -/
theorem blockTurn_admitting (s : State) (h : s.phase = .setup ∨ s.phase = .callback) : blockTurn s = takeCommand s := by
  rcases h with h | h <;> simp [blockTurn, h]

/-- Everything the block's turn can be in a phase that admits no command (R142). -/
theorem blockTurn_done (s : State) (h1 : s.phase ≠ .setup) (h2 : s.phase ≠ .callback) :
    (s.phase = .top ∧ blockTurn s = .done (.next (topStep s)))
    ∨ (s.phase = .clearin ∧ blockTurn s = .done (.next (clearinStep s)))
    ∨ (s.phase = .drain ∧ blockTurn s = .done (.next (drainStep s)))
    ∨ (s.phase = .time ∧ blockTurn s = .done (timeStep s))
    ∨ (s.phase = .present ∧ blockTurn s = .done (.next (presentStep s)))
    ∨ (s.phase = .vsync ∧ blockTurn s = .done (.next s))
    ∨ (s.phase = .halted ∧ blockTurn s = .done (.fault .runHalted))
    ∨ (s.phase = .faulted ∧ blockTurn s = .done (.fault .runFaulted)) := by
  cases h : s.phase <;> simp_all [blockTurn]

@[simp] theorem withArgs_ok {α : Type} (i : Instr) (v : α) (s : State) (k : α → Result) :
    withArgs i (.ok v) s k = k v := rfl

@[simp] theorem withArgs_wrongCount {α : Type} (i : Instr) (nw : BitVec 16) (s : State) (k : α → Result) :
    withArgs i (.wrongCount nw) s k = .next (s.raiseFault .arity i.header) := rfl

/-- What fault entry leaves (R163). -/
theorem State.faultEntered (s : State) (e : ErrCode) (h : Word) : FaultEntered s (s.raiseFault e h) e h :=
  ⟨rfl, rfl, rfl, rfl, rfl⟩

/-- A response alone changes nothing else (R64). -/
theorem State.onlyAnswered (s : State) (vs : List Word) : OnlyAnswered s (s.respond vs) vs :=
  ⟨rfl, fun _ => rfl, rfl⟩

/-- What one event can change: none of the fields named here (R114 to R120). -/
theorem applyEvent_frame (s : State) (e : Event) :
    (applyEvent s e).params = s.params ∧ (applyEvent s e).phase = s.phase ∧ (applyEvent s e).fb = s.fb
      ∧ (applyEvent s e).seed = s.seed ∧ (applyEvent s e).err = s.err ∧ (applyEvent s e).errcmd = s.errcmd
      ∧ (applyEvent s e).cmdPort = s.cmdPort ∧ (applyEvent s e).rspPort = s.rspPort
      ∧ (applyEvent s e).draws = s.draws ∧ (applyEvent s e).evq = s.evq ∧ (applyEvent s e).turns = s.turns := by
  cases e with
  | btnDown src =>
    simp only [applyEvent]
    split
    · unfold State.pressButton
      split <;> exact ⟨rfl, rfl, rfl, rfl, rfl, rfl, rfl, rfl, rfl, rfl, rfl⟩
    · exact ⟨rfl, rfl, rfl, rfl, rfl, rfl, rfl, rfl, rfl, rfl, rfl⟩
  | btnUp src =>
    simp only [applyEvent]
    split <;> exact ⟨rfl, rfl, rfl, rfl, rfl, rfl, rfl, rfl, rfl, rfl, rfl⟩
  | text b =>
    simp only [applyEvent, State.appendText]
    split <;> exact ⟨rfl, rfl, rfl, rfl, rfl, rfl, rfl, rfl, rfl, rfl, rfl⟩
  | mouseMove _ _ => exact ⟨rfl, rfl, rfl, rfl, rfl, rfl, rfl, rfl, rfl, rfl, rfl⟩
  | close => exact ⟨rfl, rfl, rfl, rfl, rfl, rfl, rfl, rfl, rfl, rfl, rfl⟩
  | devAdded _ => exact ⟨rfl, rfl, rfl, rfl, rfl, rfl, rfl, rfl, rfl, rfl, rfl⟩
  | devRemoved _ => exact ⟨rfl, rfl, rfl, rfl, rfl, rfl, rfl, rfl, rfl, rfl, rfl⟩
  | other _ => exact ⟨rfl, rfl, rfl, rfl, rfl, rfl, rfl, rfl, rfl, rfl, rfl⟩

/-- No event clears the quit flag (R23). -/
theorem applyEvent_quit (s : State) (e : Event) (h : s.quit = true) : (applyEvent s e).quit = true := by
  cases e <;> simp only [applyEvent, State.pressButton, State.appendText] <;> (try split) <;> (try split) <;>
    first | exact h | rfl

end Sys2Proof.Machine
end

