-- ==== Sys2Proof/Laws/Invariant.lean ====
section
/-! SUPPORT. That the shared operations keep the invariant of the machine (R12 to R14, R21, R24, R27). -/

namespace Sys2Proof.Machine

/-- The memory right after reset is canonical. -/
theorem reset_memory_wf : State.reset.fb.wf = true := rfl

/-- CLEAR's memory is canonical (R90). -/
theorem clear_memory_wf (s : State) (c : Byte) : (Memory.filled (s.w.toNat * s.h.toNat) c).wf = true :=
  Memory.wf_filled _ _

theorem State.Inv.setFb {s : State} (h : s.Inv) (m : Memory) (hw : m.wf = true)
    (hm : ∀ c ∈ m, c.1 < s.w.toNat * s.h.toNat) : (s.setFb m).Inv :=
  ⟨h.params, h.width, h.height, h.clipX, h.clipY, hw, hm, h.text, h.opened, h.fault, h.port⟩

theorem State.Inv.sendResponse {s : State} (h : s.Inv) (r : Response) : (s.sendResponse r).Inv :=
  ⟨h.params, h.width, h.height, h.clipX, h.clipY, h.memory, h.cells, h.text, h.opened, h.fault, h.port⟩

/-- Other words on the command port keep it if they are at most one packet (R183). -/
theorem State.Inv.setCmdPort {s : State} (h : s.Inv) (ws : List Word) (hp : atMostOnePacket ws = true) :
    (s.setCmdPort ws).Inv :=
  ⟨h.params, h.width, h.height, h.clipX, h.clipY, h.memory, h.cells, h.text, h.opened, h.fault, hp⟩

/-- Taking the command on the port keeps it, and leaves the port empty. -/
theorem State.Inv.takeCommand {s : State} (h : s.Inv) {i : Instr} {rest : List Word}
    (hd : decode s.cmdPort = .command i rest) : rest = [] ∧ (s.setCmdPort rest).Inv := by
  have e := rest_eq_nil_of_command h.port hd
  exact ⟨e, h.setCmdPort _ (by rw [e]; rfl)⟩

theorem State.Inv.setTurns {s : State} (h : s.Inv) (ts : List Turn) : (s.setTurns ts).Inv :=
  ⟨h.params, h.width, h.height, h.clipX, h.clipY, h.memory, h.cells, h.text, h.opened, h.fault, h.port⟩

/-- Fault entry keeps it: the phase is FAULTED and the code is not 0 (R24, R163). -/
theorem State.Inv.raiseFault {s : State} (h : s.Inv) (e : ErrCode) (w : Word) : (s.raiseFault e w).Inv :=
  ⟨h.params, h.width, h.height, h.clipX, h.clipY, h.memory, h.cells, h.text, h.opened, by
    simp only [State.raiseFault_phase, State.raiseFault_err, true_iff]
    cases e <;> decide, h.port⟩

/-- Drawing keeps it, whatever the pixels (R42). -/
theorem State.Inv.drawAll {s : State} (h : s.Inv) (ps : List Pixel) : (s.drawAll ps).Inv :=
  h.setFb _ (s.foldl_plot_wf ps _ h.memory) (s.foldl_plot_mem ps _ h.cells)

/-- A move between phases other than FAULTED keeps it. -/
theorem State.Inv.setPhase {s : State} (h : s.Inv) (p : Phase) (h1 : s.phase ≠ .faulted) (h2 : p ≠ .faulted) :
    (s.setPhase p).Inv :=
  ⟨h.params, h.width, h.height, h.clipX, h.clipY, h.memory, h.cells, h.text, h.opened, by
    simp only [State.setPhase_phase, State.setPhase_err]
    have := h.fault
    tauto, h.port⟩

/-- A signed half that is positive is its own unsigned value. -/
theorem toNat_of_pos (v : BitVec 16) (h : 0 < v.toInt) : (v.toNat : Int) = v.toInt := by
  have := BitVec.toInt_eq_toNat_cond v
  split at this <;> omega

/-- A resolution that passes the dimension test keeps it (R80). -/
theorem State.Inv.setResolution {s : State} (h : s.Inv) (p : XY)
    (hd : dimensionsOk s.params (xVal p) (yVal p) = true) : (s.setResolution p.a p.b).Inv := by
  obtain ⟨h1, h2, h3, h4⟩ := of_decide_eq_true hd
  simp only [xVal, yVal] at *
  have ea := toNat_of_pos p.a h1
  have eb := toNat_of_pos p.b h3
  refine ⟨h.params, ⟨?_, ?_⟩, ⟨?_, ?_⟩, ?_, ?_, rfl, ?_, h.text, h.opened, h.fault, h.port⟩ <;>
    simp [State.setResolution] <;> omega

/-- One event keeps it (R114 to R120). -/
theorem State.Inv.applyEvent {s : State} (h : s.Inv) (e : Event) : (applyEvent s e).Inv := by
  cases e with
  | btnDown src =>
    simp only [Machine.applyEvent]
    split
    · unfold State.pressButton
      split <;> exact ⟨h.params, h.width, h.height, h.clipX, h.clipY, h.memory, h.cells, h.text, h.opened, h.fault, h.port⟩
    · exact h
  | btnUp src =>
    simp only [Machine.applyEvent]
    split
    · exact ⟨h.params, h.width, h.height, h.clipX, h.clipY, h.memory, h.cells, h.text, h.opened, h.fault, h.port⟩
    · exact h
  | text b =>
    simp only [Machine.applyEvent, State.appendText]
    split
    · refine ⟨h.params, h.width, h.height, h.clipX, h.clipY, h.memory, h.cells, ?_, h.opened, h.fault, h.port⟩
      simp
      omega
    · exact h
  | mouseMove _ _ => exact ⟨h.params, h.width, h.height, h.clipX, h.clipY, h.memory, h.cells, h.text, h.opened, h.fault, h.port⟩
  | close => exact ⟨h.params, h.width, h.height, h.clipX, h.clipY, h.memory, h.cells, h.text, h.opened, h.fault, h.port⟩
  | devAdded _ =>
    exact ⟨h.params, h.width, h.height, h.clipX, h.clipY, h.memory, h.cells, h.text,
      risingIds_unionIds _ _ h.opened, h.fault, h.port⟩
  | devRemoved _ =>
    exact ⟨h.params, h.width, h.height, h.clipX, h.clipY, h.memory, h.cells, h.text,
      risingIds_unionIds _ _ h.opened, h.fault, h.port⟩
  | other _ => exact h

end Sys2Proof.Machine
end

