-- ==== Sys2Proof/Laws/PerInstr.lean ====
section
/-! SUPPORT. Statements about every instruction as syntax, one lemma per constructor. -/

namespace Sys2Proof.Laws.HeaderRow

/-- The header of an instruction selects its row of the opcode map and carries its `c8` and `nw` (R61, R65). -/
def Statement (i : Instr) : Prop :=
  selectRow i.header = some i.op ∧ c8Field i.header = i.c8 ∧ nwField i.header = i.nw

theorem row_of_header (i : Instr) (h : i.c8 &&& i.op.reserved = 0) : Statement i :=
  ⟨selectRow_mkHeader i.op i.c8 i.nw h, c8Field_mkHeader _ _ _, nwField_mkHeader _ _ _⟩

theorem setres (a : Args XY) : Statement (.setres a) := row_of_header _ (by simp [Instr.c8, Instr.op, Op.reserved])

theorem setresa (a : Args (XY × Word)) : Statement (.setresa a) := row_of_header _ (by simp [Instr.c8, Instr.op, Op.reserved])

theorem run (a : Args Unit) : Statement (.run a) := row_of_header _ (by simp [Instr.c8, Instr.op, Op.reserved])

theorem endframe (a : Args Unit) : Statement (.endframe a) := row_of_header _ (by simp [Instr.c8, Instr.op, Op.reserved])

theorem quit (a : Args Unit) : Statement (.quit a) := row_of_header _ (by simp [Instr.c8, Instr.op, Op.reserved])

theorem cbreg (en : Bool) (a : Args Unit) : Statement (.cbreg en a) := row_of_header _ (by cases en <;> simp [Instr.c8, Instr.op, Op.reserved])

theorem pset (c : Byte) (a : Args XY) : Statement (.pset c a) := row_of_header _ (by simp [Instr.c8, Instr.op, Op.reserved])

theorem pget (a : Args XY) : Statement (.pget a) := row_of_header _ (by simp [Instr.c8, Instr.op, Op.reserved])

theorem clip (a : Args (XY × XY)) : Statement (.clip a) := row_of_header _ (by simp [Instr.c8, Instr.op, Op.reserved])

theorem clipget (a : Args Unit) : Statement (.clipget a) := row_of_header _ (by simp [Instr.c8, Instr.op, Op.reserved])

theorem translate (a : Args XY) : Statement (.translate a) := row_of_header _ (by simp [Instr.c8, Instr.op, Op.reserved])

theorem clear (c : Byte) (a : Args Unit) : Statement (.clear c a) := row_of_header _ (by simp [Instr.c8, Instr.op, Op.reserved])

theorem rect (c : Byte) (a : Args (XY × XY)) : Statement (.rect c a) := row_of_header _ (by simp [Instr.c8, Instr.op, Op.reserved])

theorem rectf (c : Byte) (a : Args (XY × XY)) : Statement (.rectf c a) := row_of_header _ (by simp [Instr.c8, Instr.op, Op.reserved])

theorem circ (c : Byte) (a : Args (XY × RAD)) : Statement (.circ c a) := row_of_header _ (by simp [Instr.c8, Instr.op, Op.reserved])

theorem circf (c : Byte) (a : Args (XY × RAD)) : Statement (.circf c a) := row_of_header _ (by simp [Instr.c8, Instr.op, Op.reserved])

theorem line (c : Byte) (a : Args (XY × XY)) : Statement (.line c a) := row_of_header _ (by simp [Instr.c8, Instr.op, Op.reserved])

theorem glyphget (code : Byte) (a : Args Unit) : Statement (.glyphget code a) := row_of_header _ (by simp [Instr.c8, Instr.op, Op.reserved])

theorem glyphset (code : Byte) (a : Args (List Byte)) : Statement (.glyphset code a) := row_of_header _ (by simp [Instr.c8, Instr.op, Op.reserved])

theorem print (c : Byte) (a : Args (XY × List Byte)) : Statement (.print c a) := row_of_header _ (by simp [Instr.c8, Instr.op, Op.reserved])

theorem sprite (t : Byte) (a : Args (XY × WH × List Byte)) : Statement (.sprite t a) := row_of_header _ (by simp [Instr.c8, Instr.op, Op.reserved])

theorem colorget (slot : Byte) (a : Args Unit) : Statement (.colorget slot a) := row_of_header _ (by simp [Instr.c8, Instr.op, Op.reserved])

theorem colorset (slot : Byte) (a : Args (Word × Word × Word)) : Statement (.colorset slot a) := row_of_header _ (by simp [Instr.c8, Instr.op, Op.reserved])

theorem btn (a : Args Unit) : Statement (.btn a) := row_of_header _ (by simp [Instr.c8, Instr.op, Op.reserved])

theorem btnp (a : Args Unit) : Statement (.btnp a) := row_of_header _ (by simp [Instr.c8, Instr.op, Op.reserved])

theorem mouse (a : Args Unit) : Statement (.mouse a) := row_of_header _ (by simp [Instr.c8, Instr.op, Op.reserved])

theorem textget (a : Args Unit) : Statement (.textget a) := row_of_header _ (by simp [Instr.c8, Instr.op, Op.reserved])

theorem randu (a : Args Unit) : Statement (.randu a) := row_of_header _ (by simp [Instr.c8, Instr.op, Op.reserved])

theorem randn (a : Args Word) : Statement (.randn a) := row_of_header _ (by simp [Instr.c8, Instr.op, Op.reserved])

theorem randr (a : Args (Word × Word)) : Statement (.randr a) := row_of_header _ (by simp [Instr.c8, Instr.op, Op.reserved])

theorem seedget (a : Args Unit) : Statement (.seedget a) := row_of_header _ (by simp [Instr.c8, Instr.op, Op.reserved])

theorem seedset (a : Args Word) : Statement (.seedset a) := row_of_header _ (by simp [Instr.c8, Instr.op, Op.reserved])

end Sys2Proof.Laws.HeaderRow
end

