-- ==== Sys2Proof/Tests/Slice0.lean ====
section
/-! SUPPORT. Tests: ill-formed terms, the packets written out in 95_test_vectors.md, one step or one command on a small
state with the results that file gives, and a witness for the hypotheses of every statement. -/

namespace Sys2Proof.Tests

open Sys2Proof Sys2Proof.Machine

/-! ### A small machine: the parameters 95_test_vectors.md assumes, an 8 by 8 grid of zeros -/

def params : Params where
  maxW := 256
  maxH := 256
  initW := 8
  initH := 8
  rngFix := 0x12345678
  palInit := Vector.replicate 16 ⟨0, 0, 0⟩
  fontInit := Vector.replicate 128 (Vector.replicate 8 0)
  textCap := 32
  buttonMap := [(0x41, .a), (0x42, .a), (0x104, .right)]
  spriteHi := .mask7
  clkHz := 1000

/-- After `CLEAR 0`, in SETUP. -/
def small : State := { State.resetWith params 0 with fb := Memory.filled 64 0, lastt := 0 }

/-- In CALLBACK. -/
def inCallback : State := { small with phase := .callback, cbEn := true }

/-- The state of a result. -/
def stateOf (r : Result) : Option State :=
  match r with
  | .next s => some s
  | _ => none

/-- What a command answers from a state. -/
def answer (i : Instr) (s : State) : Option Response := (stateOf (exec i s)).bind fun t => t.rspPort.getLast?

/-- The cells a command leaves, those that are not 0, as (index, byte). -/
def drawn (i : Instr) (s : State) : Option (List Host.Cell) :=
  (stateOf (exec i s)).map fun t => t.fb.filter fun c => c.2 != 0

/-- The cell index of (x,y) in the 8 by 8 grid. -/
def at8 (x y : Nat) : Nat := y * 8 + x

/-- The answer OK with these results. -/
def ok (vs : List Word) : Option Response := some ⟨0, vs⟩

/-- The answer with this fault code. -/
def failed (code : Byte) : Option Response := some ⟨code, []⟩

/-! ### Ill-formed terms are refused (R66, R67) -/

theorem test_wf_wrong_count : (Instr.pset 1 (.wrongCount 2)).wf = false := by decide

theorem test_wf_wrong_count_unit : (Instr.run (.wrongCount 1)).wf = false := by decide

theorem test_wf_reserved_circ : (Instr.circ 1 (.ok (⟨4, 4⟩, ⟨3, 1⟩))).wf = false := by decide

theorem test_wf_reserved_circf : (Instr.circf 1 (.ok (⟨4, 4⟩, ⟨2, 1⟩))).wf = false := by decide

/-- GLYPHSET's payload has at most 262136 bytes (R67). -/
theorem wf_glyphset_iff (bs : List Byte) : (Instr.glyphset 1 (.ok bs)).wf = decide (bs.length ≤ 262136) := rfl

theorem test_wf_long_glyphset : (Instr.glyphset 1 (.ok (List.replicate 262137 0))).wf = false := by
  rw [wf_glyphset_iff, List.length_replicate]
  decide

/-- PRINT's payload has at most 262132 bytes (R67). -/
theorem wf_print_iff (bs : List Byte) : (Instr.print 1 (.ok (⟨0, 0⟩, bs))).wf = decide (bs.length ≤ 262132) := rfl

theorem test_wf_long_print : (Instr.print 1 (.ok (⟨0, 0⟩, (List.replicate 262133 0)))).wf = false := by
  rw [wf_print_iff, List.length_replicate]
  decide

/-- SPRITE's payload has at most 262128 bytes (R67). -/
theorem wf_sprite_iff (bs : List Byte) : (Instr.sprite 1 (.ok (⟨0, 0⟩, ⟨1, 1⟩, bs))).wf = decide (bs.length ≤ 262128) := rfl

theorem test_wf_long_sprite : (Instr.sprite 1 (.ok (⟨0, 0⟩, ⟨1, 1⟩, (List.replicate 262129 0)))).wf = false := by
  rw [wf_sprite_iff, List.length_replicate]
  decide

theorem test_wf_longest_print : (Instr.print 1 (.ok (⟨0, 0⟩, (List.replicate 262132 0)))).wf = true := by
  rw [wf_print_iff, List.length_replicate]
  decide

/-! ### Packets of 95_test_vectors.md, 2.1: every row of the opcode map -/

theorem test_decode_setres : decode [0x00010001, 0x00500064] = .command (.setres (.ok ⟨100, 80⟩)) [] := by decide

theorem test_decode_setresa :
    decode [0x00020002, 0x00500064, 0x3FAAAAAB]
      = .command (.setresa (.ok (⟨100, 80⟩, 0x3FAAAAAB))) [] := by decide

theorem test_decode_run : decode [0x00000003] = .command (.run (.ok ())) [] := by decide

theorem test_decode_endframe : decode [0x00000004] = .command (.endframe (.ok ())) [] := by decide

theorem test_decode_quit : decode [0x00000005] = .command (.quit (.ok ())) [] := by decide

theorem test_decode_cbreg : decode [0x00000106] = .command (.cbreg true (.ok ())) [] := by decide

theorem test_decode_cbreg_off : decode [0x00000006] = .command (.cbreg false (.ok ())) [] := by decide

theorem test_decode_pset : decode [0x00011F10, 0x00030002] = .command (.pset 0x1F (.ok ⟨2, 3⟩)) [] := by decide

theorem test_decode_pset_negative :
    decode [0x00010510, 0xFFFEFFFF]
      = .command (.pset 5 (.ok ⟨-1, -2⟩)) [] := by decide

theorem test_decode_pget : decode [0x00010011, 0x00030002] = .command (.pget (.ok ⟨2, 3⟩)) [] := by decide

theorem test_decode_clip :
    decode [0x00020012, 0x00030003, 0x00010001]
      = .command (.clip (.ok (⟨3, 3⟩, ⟨1, 1⟩))) [] := by decide

theorem test_decode_clipget : decode [0x00000013] = .command (.clipget (.ok ())) [] := by decide

theorem test_decode_translate : decode [0x00010014, 0xFFFF0002] = .command (.translate (.ok ⟨2, -1⟩)) [] := by decide

theorem test_decode_clear : decode [0x00000520] = .command (.clear 5 (.ok ())) [] := by decide

theorem test_decode_rect :
    decode [0x00020721, 0x00000000, 0x00020003]
      = .command (.rect 7 (.ok (⟨0, 0⟩, ⟨3, 2⟩))) [] := by decide

theorem test_decode_rectf :
    decode [0x00020322, 0x00010001, 0x00020003]
      = .command (.rectf 3 (.ok (⟨1, 1⟩, ⟨3, 2⟩))) [] := by decide

theorem test_decode_circ :
    decode [0x00020923, 0x00040004, 0x00000003]
      = .command (.circ 9 (.ok (⟨4, 4⟩, ⟨3, 0⟩))) [] := by decide

theorem test_decode_circf :
    decode [0x00020924, 0x00040004, 0x0000FFFF]
      = .command (.circf 9 (.ok (⟨4, 4⟩, ⟨-1, 0⟩))) [] := by decide

theorem test_decode_line :
    decode [0x00020125, 0x00010003, 0x00000000]
      = .command (.line 1 (.ok (⟨3, 1⟩, ⟨0, 0⟩))) [] := by decide

theorem test_decode_glyphget : decode [0x00004130] = .command (.glyphget 65 (.ok ())) [] := by decide

theorem test_decode_glyphset :
    decode [0x00030131, 0x00000008, 0x00000081, 0x81000000]
      = .command (.glyphset 1 (.ok [0x81, 0, 0, 0, 0, 0, 0, 0x81])) [] := by decide

theorem test_decode_print :
    decode [0x00040332, 0x00000000, 0x00000005, 0x6C6C6548, 0x0000006F]
      = .command (.print 3 (.ok (⟨0, 0⟩, [0x48, 0x65, 0x6C, 0x6C, 0x6F]))) [] := by decide

theorem test_decode_print_empty :
    decode [0x00020332, 0x00000000, 0x00000000]
      = .command (.print 3 (.ok (⟨0, 0⟩, []))) [] := by decide

theorem test_decode_sprite :
    decode [0x00041033, 0x00060005, 0x00010002, 0x00000002, 0x00006631]
      = .command (.sprite 16 (.ok (⟨5, 6⟩, ⟨2, 1⟩, [0x31, 0x66]))) [] := by decide

theorem test_decode_colorget : decode [0x00000340] = .command (.colorget 3 (.ok ())) [] := by decide

theorem test_decode_colorset :
    decode [0x00030041, 0x0000012C, 0xFFFFFFFF, 0x00000100]
      = .command (.colorset 0 (.ok (300, -1, 256))) [] := by decide

theorem test_decode_btn : decode [0x00000050] = .command (.btn (.ok ())) [] := by decide

theorem test_decode_btnp : decode [0x00000051] = .command (.btnp (.ok ())) [] := by decide

theorem test_decode_mouse : decode [0x00000052] = .command (.mouse (.ok ())) [] := by decide

theorem test_decode_textget : decode [0x00000053] = .command (.textget (.ok ())) [] := by decide

theorem test_decode_randu : decode [0x00000060] = .command (.randu (.ok ())) [] := by decide

theorem test_decode_randn : decode [0x00010061, 0x00000006] = .command (.randn (.ok 6)) [] := by decide

theorem test_decode_randr :
    decode [0x00020062, 0xFFFFFFFD, 0x00000003]
      = .command (.randr (.ok (-3, 3))) [] := by decide

theorem test_decode_seedget : decode [0x00000063] = .command (.seedget (.ok ())) [] := by decide

theorem test_decode_seedset : decode [0x00010064, 0x12345678] = .command (.seedset (.ok 0x12345678)) [] := by decide

/-- 2.2: no row, reserved `c8` bits; the packet is consumed whole. -/
theorem test_decode_unknown : decode [0x00010007, 5, 0x00000050] = .illegal 0x00010007 [0x00000050] := by decide

theorem test_decode_reserved_c8 : decode [0x00000103] = .illegal 0x00000103 [] := by decide

theorem test_decode_cbreg_two : decode [0x00000206] = .illegal 0x00000206 [] := by decide

/-- 2.2: GLYPHSET with `len = 8` and `nw = 2` is a wrong count. -/
theorem test_decode_short_payload :
    decode [0x00020031, 0x00000008, 0] = .command (.glyphset 0 (.wrongCount 2)) [] := by decide

/-- A packet that is not whole waits (R60). -/
theorem test_decode_incomplete : decode [0x00020924, 0x00040004] = .incomplete := by decide

/-- 2.7: event records. -/
theorem test_event_button : EventRec.decode ⟨0x00010402, 0⟩ = .btnUp 0x104 := by decide

theorem test_event_mouse : EventRec.decode ⟨0x00000003, 0xFFFEFFFF⟩ = .mouseMove (-1) (-2) := by decide

theorem test_event_text : EventRec.decode ⟨0x00006804, 0⟩ = .text 0x68 := by decide

theorem test_event_other : EventRec.decode ⟨0x00000009, 0⟩ = .other 9 := by decide

/-! ### Commands on the small machine: 95_test_vectors.md, 2.2 to 2.8 -/

/-- 2.3: SETRES 10, 5 keeps the translation and sets the clip rectangle. -/
theorem test_setres :
    (stateOf (exec (.setres (.ok ⟨10, 5⟩)) { small with dx := 3, dy := 4 })).map
      (fun t => ([t.w, t.h, t.xh, t.yh, t.dx, t.dy], t.fb)) = some ([10, 5, 10, 5, 3, 4], []) := by decide

/-- 2.2: SETRES 256, 5 with `MAX_W = 256` is ERR_DIMENSION. -/
theorem test_setres_too_wide : answer (.setres (.ok ⟨256, 5⟩)) small = failed 4 := by decide

/-- 2.3: SETRESA 100, 80, 0x3FAAAAAB. -/
theorem test_setresa :
    (stateOf (exec (.setresa (.ok (⟨100, 80⟩, 0x3FAAAAAB))) small)).bind (fun t => t.dispPort.getLast?)
      = some (.mode 100 80 true 0x3FAAAAAB) := by decide

/-- R144: RUN in SETUP. -/
theorem test_run :
    (stateOf (exec (.run (.ok ())) { small with now := 7 })).map (fun t => (t.phase, t.lastt)) = some (.top, 7) := by
  decide

/-- 2.9: RUN in CALLBACK is ERR_PHASE. -/
theorem test_run_twice : answer (.run (.ok ())) inCallback = failed 3 := by decide

/-- R150: ENDFRAME in CALLBACK. -/
theorem test_endframe : (stateOf (exec (.endframe (.ok ())) inCallback)).map (fun t => t.phase) = some .present := by
  decide

/-- 2.2: ENDFRAME in SETUP is ERR_PHASE. -/
theorem test_endframe_in_setup : answer (.endframe (.ok ())) small = failed 3 := by decide

/-- R153. -/
theorem test_quit : (stateOf (exec (.quit (.ok ())) small)).map (fun t => (t.quit, t.phase)) = some (true, .setup) := by
  decide

/-- R154. -/
theorem test_cbreg : (stateOf (exec (.cbreg false (.ok ())) inCallback)).map (fun t => (t.cbEn, t.phase))
    = some (false, .callback) := by decide

/-- 2.3: `PSET 0x1F, 5, 3` with DX = 2 writes the whole byte to (7,3). -/
theorem test_pset : drawn (.pset 0x1F (.ok ⟨5, 3⟩)) { small with dx := 2 } = some [(at8 7 3, 0x1F)] := by decide

/-- 2.3: with clip (2,2,3,3) and DX = 1, `PSET 6, 3, 2` falls at (4,2) and is dropped. -/
theorem test_pset_clipped :
    drawn (.pset 6 (.ok ⟨3, 2⟩)) { small with xl := 2, yl := 2, xh := 3, yh := 3, dx := 1 } = some [] := by decide

/-- 2.3: reads ignore clip and translation, and mask. -/
theorem test_pget :
    answer (.pget (.ok ⟨1, 2⟩)) { small with fb := Memory.write small.fb (at8 1 2) 0x29, dx := 1, xl := 2, yl := 2 }
      = ok [9] := by decide

/-- 2.3: `PGET 8, 0` is 0. -/
theorem test_pget_outside :
    answer (.pget (.ok ⟨8, 0⟩)) { small with fb := Memory.filled 64 0xFF } = ok [0] := by decide

/-- 2.3: `CLIP 3, 1, 1, 3` stores (1,1,3,3). -/
theorem test_clip :
    (stateOf (exec (.clip (.ok (⟨3, 1⟩, ⟨1, 3⟩))) small)).map (fun t => (t.xl, t.yl, t.xh, t.yh)) = some (1, 1, 3, 3) := by
  decide

/-- 2.3: the bounds come back sign-extended. -/
theorem test_clipget :
    answer (.clipget (.ok ())) { small with xl := 0x8000, yl := 0x8000, xh := 0x7FFF, yh := 0x7FFF }
      = ok [0xFFFF8000, 0xFFFF8000, 0x00007FFF, 0x00007FFF] := by decide

/-- R86: the offset is replaced, not added to. -/
theorem test_translate :
    (stateOf (exec (.translate (.ok ⟨2, -1⟩)) { small with dx := 7, dy := 7 })).map (fun t => (t.dx, t.dy))
      = some (2, -1) := by decide

/-- 2.4: `CLEAR 0x25` on a 4 by 2 grid, clip and translation ignored. -/
theorem test_clear :
    (stateOf (exec (.clear 0x25 (.ok ())) { small with w := 4, h := 2, fb := [], xl := 2, xh := 2, dx := 9 })).map
      (fun t => t.fb) = some ((List.range 8).map fun a => (a, 0x25)) := by decide

/-- 2.4: `RECTF c, 3,2,1,1`. -/
theorem test_rectf : drawn (.rectf 3 (.ok (⟨3, 2⟩, ⟨1, 1⟩))) small
    = some [(at8 1 1, 3), (at8 2 1, 3), (at8 3 1, 3), (at8 1 2, 3), (at8 2 2, 3), (at8 3 2, 3)] := by decide

/-- 2.4: `RECT c, 0,0,3,2`: ten cells, the two inner ones left alone. -/
theorem test_rect : drawn (.rect 7 (.ok (⟨0, 0⟩, ⟨3, 2⟩))) small
    = some [(at8 0 0, 7), (at8 1 0, 7), (at8 2 0, 7), (at8 3 0, 7), (at8 0 1, 7), (at8 3 1, 7), (at8 0 2, 7),
        (at8 1 2, 7), (at8 2 2, 7), (at8 3 2, 7)] := by decide

/-- 2.4: `CIRCF c, 4,4,1`. -/
theorem test_circf : drawn (.circf 9 (.ok (⟨4, 4⟩, ⟨1, 0⟩))) small
    = some [(at8 4 3, 9), (at8 3 4, 9), (at8 4 4, 9), (at8 5 4, 9), (at8 4 5, 9)] := by decide

/-- 2.2: a `RAD` word with a nonzero upper half is ERR_ILLEGAL. -/
theorem test_circf_reserved : answer (.circf 9 (.ok (⟨4, 4⟩, ⟨2, 1⟩))) small = failed 1 := by decide

/-- 2.4: `CIRC c, 4,4,2`: the 13 offsets without the centre. -/
theorem test_circ : drawn (.circ 9 (.ok (⟨4, 4⟩, ⟨2, 0⟩))) small
    = some [(at8 4 2, 9), (at8 3 3, 9), (at8 4 3, 9), (at8 5 3, 9), (at8 2 4, 9), (at8 3 4, 9), (at8 5 4, 9),
        (at8 6 4, 9), (at8 3 5, 9), (at8 4 5, 9), (at8 5 5, 9), (at8 4 6, 9)] := by decide

/-- 2.4: `CIRC c, 4,4,0` draws nothing. -/
theorem test_circ_point : drawn (.circ 9 (.ok (⟨4, 4⟩, ⟨0, 0⟩))) small = some [] := by decide

/-- 2.4: `LINE c, 0,0,7,3`. -/
theorem test_line : drawn (.line 1 (.ok (⟨0, 0⟩, ⟨7, 3⟩))) small
    = some [(at8 0 0, 1), (at8 1 0, 1), (at8 2 1, 1), (at8 3 1, 1), (at8 4 2, 1), (at8 5 2, 1), (at8 6 3, 1),
        (at8 7 3, 1)] := by decide

/-- 2.4: `LINE c, 2,1,0,0`: not the points of the line the other way round. -/
theorem test_line_back : drawn (.line 1 (.ok (⟨2, 1⟩, ⟨0, 0⟩))) small
    = some [(at8 0 0, 1), (at8 1 1, 1), (at8 2 1, 1)] := by decide

/-- The small machine with glyph 65 of 2.5's table. -/
def withGlyph (bs : List Byte) : State := { small with glyph := small.glyph.set 65 (glyphOfBytes bs) }

/-- 2.5: GLYPHGET. -/
theorem test_glyphget : answer (.glyphget 65 (.ok ())) (withGlyph [1, 2, 3, 4, 5, 6, 7, 8])
    = ok [0x04030201, 0x08070605] := by decide

/-- 2.2: GLYPHGET 128 is ERR_GLYPH. -/
theorem test_glyphget_code : answer (.glyphget 128 (.ok ())) small = failed 7 := by decide

/-- R101: the eight rows. -/
theorem test_glyphset :
    (stateOf (exec (.glyphset 65 (.ok [1, 2, 3, 4, 5, 6, 7, 8])) small)).map (fun t => (t.glyphAt 65).toList)
      = some [1, 2, 3, 4, 5, 6, 7, 8] := by decide

/-- 2.2: GLYPHSET 128 with seven bytes is ERR_GLYPH, before ERR_LENGTH. -/
theorem test_glyphset_order : answer (.glyphset 128 (.ok [0, 0, 0, 0, 0, 0, 0])) small = failed 7 := by decide

/-- 2.5: byte 0xC1 draws glyph 65, bit 0 leftmost, row 7 lowest. -/
theorem test_print : drawn (.print 3 (.ok (⟨0, 0⟩, [0xC1]))) (withGlyph [1, 0, 0, 0, 0, 0, 0, 0x80])
    = some [(at8 0 0, 3), (at8 7 7, 3)] := by decide

/-- 2.5: `SPRITE 0, 0, 3, 2, "12 ab0", 0`. -/
theorem test_sprite : drawn (.sprite 0 (.ok (⟨0, 0⟩, ⟨3, 2⟩, [0x31, 0x32, 0x20, 0x61, 0x62, 0x30]))) small
    = some [(at8 0 0, 1), (at8 1 0, 2), (at8 0 1, 10), (at8 1 1, 11)] := by decide

/-- 2.5: data byte 0xB1 under both values of SPRITE_HI. -/
theorem test_sprite_high_byte :
    (spriteColor params 0xB1, spriteColor { params with spriteHi := .zero } 0xB1) = (1, 0) := by decide

/-- 2.6: COLORGET. -/
theorem test_colorget : answer (.colorget 3 (.ok ())) { small with pal := small.pal.set 3 ⟨255, 128, 0⟩ }
    = ok [0x000000FF, 0x00000080, 0x00000000] := by decide

/-- 2.2: COLORGET 16 is ERR_SLOT. -/
theorem test_colorget_slot : answer (.colorget 16 (.ok ())) small = failed 5 := by decide

/-- 2.6: `COLORSET 15, 2147483647, 128, -129` stores (255, 128, 127). -/
theorem test_colorset :
    (stateOf (exec (.colorset 15 (.ok (2147483647, 128, -129))) small)).map (fun t => t.color 15)
      = some ⟨255, 128, 127⟩ := by decide

/-- 2.7: the queries. -/
theorem test_btn : answer (.btn (.ok ())) { small with down := 0x081 } = ok [0x00000081] := by decide

theorem test_btnp : answer (.btnp (.ok ())) { small with pressed := 0x200 } = ok [0x00000200] := by decide

theorem test_mouse : answer (.mouse (.ok ())) { small with mx := 40, my := 25, dx := 8, dy := -2 } = ok [32, 27] := by
  decide

theorem test_mouse_far : answer (.mouse (.ok ())) { small with mx := 0x8000, dx := 0x7FFF } = ok [0xFFFF0001, 0] := by
  decide

theorem test_textget : answer (.textget (.ok ())) { small with text := [0x68, 0x65, 0x6C, 0x6C, 0x6F] }
    = ok [5, 0x6C6C6568, 0x0000006F] := by decide

/-- 2.8: RANDU from SEED = 1, and the largest draw. -/
theorem test_randu : answer (.randu (.ok ())) { small with seed := 1 } = ok [0, 0x3F108084] := by decide

theorem test_randu_largest : answer (.randu (.ok ())) { small with seed := 0x5E6CFCE7 } = ok [0xFFE00000, 0x3FEFFFFF] := by
  decide

/-- 2.8: RANDN 6, and RANDN 0 of 2.2. -/
theorem test_randn : answer (.randn (.ok 6)) { small with seed := 0x04080601 } = ok [4] := by decide

theorem test_randn_empty : answer (.randn (.ok 0)) small = failed 8 := by decide

/-- 2.8: the binary64 product rounds up to the next integer. -/
theorem test_randr_rounds : answer (.randr (.ok (-5, 2147483641))) { small with seed := 0x7AB5C529 }
    = ok [0x3FFFFFFB] := by decide

/-- 2.2: `RANDR 0, 2^31-1` is ERR_RANGE_OVERFLOW. -/
theorem test_randr_overflow : answer (.randr (.ok (0, 0x7FFFFFFF))) small = failed 9 := by decide

theorem test_seedget : answer (.seedget (.ok ())) small = ok [0] := by decide

/-- P2, and 2.8's last row: a zero word is stored as it is, and corrected when drawn from. -/
theorem test_seedset : (stateOf (exec (.seedset (.ok 0)) { small with seed := 9 })).map
    (fun t => (t.seed, t.advance.seed)) = some (0, 0x87985AA5) := by decide

/-! ### Steps: 95_test_vectors.md, 2.2, 2.7 and 2.9 -/

/-- 2.2: the fault record of RANDR 10, 5; the seed stays. -/
theorem test_fault_entry :
    (stateOf (step { small with cmdPort := [0x00020062, 10, 5], seed := 1 })).map
      (fun t => (t.phase, t.err, t.errcmd, t.seed, t.rspPort)) = some (.faulted, 8, 0x00020062, 1, [⟨8, []⟩]) := by decide

/-- 2.2: an unknown opcode. -/
theorem test_unknown_opcode :
    (stateOf (step { small with cmdPort := [0x00000007] })).map (fun t => (t.phase, t.err, t.errcmd))
      = some (.faulted, 1, 7) := by decide

/-- 2.2: RUN with `nw = 1` is ERR_ARITY, and both words are consumed. -/
theorem test_arity_first :
    (stateOf (step { inCallback with cmdPort := [0x00010003, 0] })).map (fun t => (t.err, t.cmdPort)) = some (2, []) := by
  decide

/-- 2.9: a packet in VSYNC is held. -/
theorem test_held :
    (stateOf (step { small with phase := .vsync, cmdPort := [0x00010110, 0] })).map (fun t => (t.phase, t.cmdPort))
      = some (.vsync, [0x00010110, 0]) := by decide

/-- R60: a packet may come in parts. -/
theorem test_host_completes_a_packet :
    (stateOf (step { small with cmdPort := [0x00010064], turns := [.host [7]] })).map (fun t => t.cmdPort)
      = some [0x00010064, 7] := by decide

/-- R183, U6: HOST sends no second packet before the response to the first. -/
theorem test_host_second_packet :
    step { small with cmdPort := [0x00000005], turns := [.host [0x00000005]] } = .refused .secondPacket := rfl

/-- 2.7: a press and a release in one drain. -/
theorem test_drain :
    (stateOf (step { small with phase := .drain, evq := [⟨0x00004101, 0⟩, ⟨0x00004102, 0⟩] })).map
      (fun t => (t.down, t.pressed, t.phase)) = some (0x000, 0x001, .time) := by decide

/-- 2.7: a held key reported again is no transition. -/
theorem test_drain_repeat :
    (stateOf (step { small with phase := .drain, down := 0x001, evq := [⟨0x00004101, 0⟩] })).map
      (fun t => (t.down, t.pressed)) = some (0x001, 0x000) := by decide

/-- 2.9: FRAME_START(0.016). -/
theorem test_time :
    (stateOf (step { inCallback with phase := .time, now := 16 })).map (fun t => (t.cbPort, t.lastt, t.phase))
      = some ([⟨0xD2F1A9FC, 0x3F90624D⟩], 16, .callback) := by decide

/-- 2.9: TOP with the quit flag set. -/
theorem test_top : (stateOf (step { small with phase := .top, quit := true })).map (fun t => t.phase) = some .halted := by
  decide

/-- Two cells in PRESENT. -/
def framed : State :=
  { small with
    phase := .present
    w := 2
    h := 1
    fb := [(0, 0x1F), (1, 0x20)]
    pal := (small.pal.set 15 ⟨255, 255, 255⟩).set 0 ⟨1, 2, 3⟩ }

/-- 2.6: a frame of two pixels, colours 15 and 0 of the palette. -/
theorem test_present : (stateOf (step framed)).bind (fun t => t.dispPort.getLast?)
    = some (.frame [0xFFFFFF, 0x010203]) := by decide

/-- R27, R119: a rescan opens each device once. -/
theorem test_rescan :
    (stateOf (step { small with phase := .drain, opened := [3, 9], devices := [9, 5], evq := [⟨0x00000006, 7⟩] })).map
      (fun t => t.opened) = some [3, 5, 9] := by decide

/-- The first instruction after reset: a packet placed there runs. -/
theorem test_first_instruction :
    (stateOf (step (State.reset.withFetchWord 32 0x00000106))).map (fun t => t.cbEn) = some true := by decide

/-- The state after reset meets R4 whatever the opaque parameters are. -/
theorem test_reset_params : State.reset.params.wf = true := by
  show (if Config.anyParams.wf then Config.anyParams else Params.least).wf = true
  split
  · assumption
  · decide

/-! ### Witnesses: for each statement with hypotheses, a state and operands that meet all of them together, each clause
at the edges of its range -/

/-- The invariant holds of the small machine. -/
theorem small_inv : small.Inv where
  params := by decide
  width := by decide
  height := by decide
  clipX := by decide
  clipY := by decide
  memory := by decide
  cells := by decide
  text := by decide
  opened := by decide
  fault := by decide
  port := by decide

/-- DecodeEncodeRoundTrip: a negative coordinate, the largest radius, an odd payload. -/
theorem test_witness_DecodeEncodeRoundTrip :
    (Instr.circ 255 (.ok (⟨-32768, 32767⟩, ⟨-1, 0⟩))).wf = true ∧ (Instr.cbreg true (.ok ())).wf = true
      ∧ (Instr.sprite 16 (.ok (⟨0, 0⟩, ⟨65535, 65535⟩, [1, 2, 3, 4, 5]))).wf = true := by decide

/-- BlockActs: no turn named, and the block's turn named. -/
theorem blockActs_nil (s : State) (h : s.turns = []) : BlockActs s s := .inl ⟨h, rfl⟩

theorem blockActs_cons (s : State) (ts : List Turn) (h : s.turns = .block :: ts) : BlockActs s { s with turns := ts } :=
  .inr ⟨ts, h, rfl⟩

/-- PacketsAreClassifiedInOrder: no row; a count too small, too large, and a payload's; a reserved half; a command. The
block's turn is named, or none is. -/
theorem test_witness_PacketsAreClassifiedInOrder :
    (let s := { small with cmdPort := [0x00010007, 5, 9] }
     BlockActs s s ∧ s.phase = .setup ∧ s.cmdPort = 0x00010007 :: ([5] ++ [9])
      ∧ [(5 : Word)].length = (nwField 0x00010007).toNat ∧ selectRow 0x00010007 = none)
    ∧ (let s := { inCallback with cmdPort := [0x00000010], turns := [.block, .display] }
       BlockActs s { s with turns := [.display] } ∧ s.phase = .callback ∧ s.cmdPort = 0x00000010 :: ([] ++ [])
        ∧ selectRow 0x00000010 = some .pset ∧ ([] : List Word).length = (nwField 0x00000010).toNat
        ∧ ¬ OperandCountRight .pset [])
    ∧ (selectRow 0x00020010 = some .pset ∧ [(0 : Word), 0].length = (nwField 0x00020010).toNat
      ∧ ¬ OperandCountRight .pset [0, 0])
    ∧ (selectRow 0x00020031 = some .glyphset ∧ [(8 : Word), 0].length = (nwField 0x00020031).toNat
      ∧ ¬ OperandCountRight .glyphset [8, 0])
    ∧ (selectRow 0x00020924 = some .circf ∧ [(0x00040004 : Word), 0x00010002].length = (nwField 0x00020924).toNat
      ∧ OperandCountRight .circf [0x00040004, 0x00010002] ∧ radReserved .circf [0x00040004, 0x00010002] ≠ 0)
    ∧ (selectRow 0x00030031 = some .glyphset ∧ [(7 : Word), 0, 0].length = (nwField 0x00030031).toNat
      ∧ OperandCountRight .glyphset [7, 0, 0] ∧ radReserved .glyphset [7, 0, 0] = 0) := by
  refine ⟨⟨blockActs_nil _ rfl, by decide⟩, ⟨blockActs_cons _ _ rfl, by decide, by decide, by decide, by decide, ?_⟩,
    ⟨by decide, by decide, ?_⟩, ⟨by decide, by decide, ?_⟩, ⟨by decide, by decide, ?_, by decide⟩,
    ⟨by decide, by decide, ?_, by decide⟩⟩ <;>
    simp [OperandCountRight, lenIndex, Op.fixed]

/-- StepRunsTheDecodedCommand: no turn named; a turn of the block; a packet short of one word; an empty port, and a
header alone that announces one word. -/
theorem test_witness_StepRunsTheDecodedCommand :
    (let s := { inCallback with cmdPort := [0x00000050, 7] }
     BlockActs s s ∧ s.phase = .callback ∧ decode s.cmdPort = .command (.btn (.ok ())) [7])
    ∧ (let s := { small with cmdPort := [0x00000050], turns := [.block, .display] }
       BlockActs s { s with turns := [.display] } ∧ s.phase = .setup ∧ decode s.cmdPort = .command (.btn (.ok ())) [])
    ∧ (let s := { small with cmdPort := [0x00020924, 0x00040004], turns := [.block] }
       BlockActs s { s with turns := [] } ∧ s.phase = .setup ∧ decode s.cmdPort = .incomplete)
    ∧ decode [] = .incomplete ∧ decode [0x00010064] = .incomplete ∧ decode [0x00010064, 7] ≠ .incomplete :=
  ⟨⟨blockActs_nil _ rfl, by decide⟩, ⟨blockActs_cons _ _ rfl, by decide⟩, ⟨blockActs_cons _ _ rfl, by decide⟩, by decide⟩

theorem test_witness_WrongOperandCountFaults : hasOperands (.sprite 16 (.wrongCount 2)) = false := by decide

/-- PixelWriteIsTranslatedBoundedAndClipped: the last cell; one column past it; one row past the clip rectangle. -/
theorem test_witness_PixelWriteIsTranslatedBoundedAndClipped :
    (let s := { small with dx := 2 }
     (7 : Int) = 5 + s.dx.toInt ∧ (7 : Int) = 7 + s.dy.toInt ∧ (0 : Int) ≤ 7 ∧ (7 : Int) < s.w.toNat
      ∧ (7 : Int) < s.h.toNat ∧ s.xl.toInt ≤ 7 ∧ 7 ≤ s.xh.toInt ∧ s.yl.toInt ≤ 7 ∧ 7 ≤ s.yh.toInt)
    ∧ (let s := { small with dx := 2 }
       (8 : Int) = 6 + s.dx.toInt ∧ ¬ ((8 : Int) < s.w.toNat))
    ∧ (let s := { small with yh := 3 }
       (4 : Int) = 4 + s.dy.toInt ∧ ¬ ((4 : Int) ≤ s.yh.toInt)) := by decide

/-- PgetReadsTheMaskedCell: the last cell, the column after it, the row before the first. -/
theorem test_witness_PgetReadsTheMaskedCell :
    (let p : XY := ⟨7, 7⟩
     0 ≤ p.a.toInt ∧ p.a.toInt < small.w.toNat ∧ 0 ≤ p.b.toInt ∧ p.b.toInt < small.h.toNat)
    ∧ (let p : XY := ⟨8, 0⟩
       ¬ (p.a.toInt < small.w.toNat))
    ∧ (let p : XY := ⟨0, -1⟩
       ¬ (0 ≤ p.b.toInt)) := by decide

theorem test_witness_WrittenPixelReadsBackMasked :
    (let s := { small with dx := 2, dy := -1 }
     let p : XY := ⟨-2, 8⟩
     let q : XY := ⟨0, 7⟩
     s.landing p.a.toInt p.b.toInt = some (at8 0 7) ∧ q.a.toInt = p.a.toInt + s.dx.toInt
      ∧ q.b.toInt = p.b.toInt + s.dy.toInt) := by decide

/-- SetresMakesANewGrid and SetresaMakesANewGridWithAspect: 1 and 255 are allowed of `MAX_W = MAX_H = 256`; 0, 256 and
a negative width are not. -/
theorem test_witness_SetresMakesANewGrid :
    (let p : XY := ⟨255, 1⟩
     0 < p.a.toInt ∧ p.a.toInt < small.params.maxW ∧ 0 < p.b.toInt ∧ p.b.toInt < small.params.maxH)
    ∧ (let p : XY := ⟨256, 5⟩
       ¬ (p.a.toInt < small.params.maxW))
    ∧ (let p : XY := ⟨5, 0⟩
       ¬ (0 < p.b.toInt))
    ∧ (let p : XY := ⟨-3, 5⟩
       ¬ (0 < p.a.toInt)) := by decide

/-- The clauses of SETRESA are those of SETRES, on the same operands. -/
theorem test_witness_SetresaMakesANewGridWithAspect :
    (let p : XY := ⟨1, 255⟩
     0 < p.a.toInt ∧ p.a.toInt < small.params.maxW ∧ 0 < p.b.toInt ∧ p.b.toInt < small.params.maxH)
    ∧ (let p : XY := ⟨5, 256⟩
       ¬ (p.b.toInt < small.params.maxH)) := by decide

theorem test_witness_ClearFillsTheGrid : small.Inv ∧ 63 < small.w.toNat * small.h.toNat
    ∧ small.w.toNat * small.h.toNat ≤ 64 := ⟨small_inv, by decide, by decide⟩

theorem test_witness_CircfDrawsTheDisk : (⟨-1, 0⟩ : RAD).reserved = 0 ∧ (⟨2, 1⟩ : RAD).reserved ≠ 0 := by decide

theorem test_witness_CircDrawsTheAnnulus : (⟨0, 0⟩ : RAD).reserved = 0 ∧ (⟨0, 0x8000⟩ : RAD).reserved ≠ 0 := by decide

theorem test_witness_LineDrawsThePathOfTheErrorTerm :
    (let p : XY := ⟨3, 1⟩
     let q : XY := ⟨0, 0⟩
     (3 : Int) = ((q.a.toInt - p.a.toInt).natAbs : Int) ∧ (1 : Int) = ((q.b.toInt - p.b.toInt).natAbs : Int)
      ∧ (-1 : Int) = (if p.a.toInt < q.a.toInt then 1 else -1) ∧ (-1 : Int) = (if p.b.toInt < q.b.toInt then 1 else -1)
      ∧ (linePoints 3 1 0 0)[3]? = some (0, 0) ∧ (linePoints 3 1 0 0)[1]? = some (2, 1)) := by decide

/-- LinePathReachesItsEnd: a flat line and a steep one. -/
theorem test_witness_LinePathReachesItsEnd :
    ((linePoints 0 0 3 1)[1]? = some (1, 0) ∧ (linePoints 0 0 3 1)[1 + 1]? = some (2, 1)
      ∧ (1 - 0 : Int).natAbs ≤ (3 - 0 : Int).natAbs)
    ∧ ((linePoints 0 0 1 3)[0]? = some (0, 0) ∧ (linePoints 0 0 1 3)[0 + 1]? = some (0, 1)
      ∧ (1 - 0 : Int).natAbs ≤ (3 - 0 : Int).natAbs) := by decide

theorem test_witness_GlyphgetRespondsTheRows : (127 : Byte).toNat ≤ 127 ∧ 127 < (128 : Byte).toNat := by decide

theorem test_witness_GlyphsetReplacesOneGlyph :
    ((127 : Byte).toNat ≤ 127 ∧ [(1 : Byte), 2, 3, 4, 5, 6, 7, 8].length = 8) ∧ 127 < (128 : Byte).toNat
      ∧ ((0 : Byte).toNat ≤ 127 ∧ [(1 : Byte), 2, 3, 4, 5, 6, 7].length ≠ 8) := by decide

/-- SpriteBytesDecodeToColours: both ends of each range, and the bytes beside them. -/
theorem test_witness_SpriteBytesDecodeToColours :
    (1 ≤ 1 ∧ 9 ≤ 9) ∧ (10 ≤ 10 ∧ 15 ≤ 15)
      ∧ (0x30 < 128 ∧ ¬ (0x31 ≤ 0x30 ∧ 0x30 ≤ 0x39) ∧ ¬ (0x41 ≤ 0x30 ∧ 0x30 ≤ 0x46) ∧ ¬ (0x61 ≤ 0x30 ∧ 0x30 ≤ 0x66))
      ∧ (0x67 < 128 ∧ ¬ (0x31 ≤ 0x67 ∧ 0x67 ≤ 0x39) ∧ ¬ (0x41 ≤ 0x67 ∧ 0x67 ≤ 0x46) ∧ ¬ (0x61 ≤ 0x67 ∧ 0x67 ≤ 0x66))
      ∧ 127 < 128 := by decide

/-- SpriteDrawsOpaquePixels: a pixel that lands in the last cell, a transparent one, an empty sprite, a wrong length. -/
theorem test_witness_SpriteDrawsOpaquePixels :
    (let p : XY := ⟨6, 7⟩
     let z : WH := ⟨2, 1⟩
     let data : List Byte := [0x31, 0x66]
     data.length = z.w.toNat * z.h.toNat ∧ 1 < z.w.toNat ∧ 0 < z.h.toNat
      ∧ spriteByte small.params z.w.toNat data 1 0 ≠ 1
      ∧ small.landing (p.a.toInt + (1 : Nat)) (p.b.toInt + (0 : Nat)) = some (at8 7 7)
      ∧ spriteByte small.params z.w.toNat data 0 0 = 1)
    ∧ (let z : WH := ⟨0, 5⟩
       ([] : List Byte).length = z.w.toNat * z.h.toNat)
    ∧ (let z : WH := ⟨2, 2⟩
       [(0x31 : Byte), 0x32, 0x33].length ≠ z.w.toNat * z.h.toNat) := by decide

theorem test_witness_ColorgetRespondsTheEntry : (15 : Byte).toNat ≤ 15 ∧ 15 < (16 : Byte).toNat := by decide

theorem test_witness_ColorsetStoresTruncatedComponents : (15 : Byte).toNat ≤ 15 ∧ 15 < (255 : Byte).toNat := by decide

theorem test_witness_PresentEmitsTheFrame :
    BlockActs framed framed ∧ framed.phase = .present ∧ 1 < framed.w.toNat * framed.h.toNat :=
  ⟨blockActs_nil _ rfl, by decide⟩

/-- InputQueriesRespond: a text whose length the LEN word holds. -/
theorem test_witness_InputQueriesRespond : { small with text := [0x68, 0x69] }.text.length < 2 ^ 32 := by decide

/-- EventRecordsAreReadByKind: the records of 2.7, and the kinds on both sides of the table. -/
theorem test_witness_EventRecordsAreReadByKind :
    ([0x00004101, 0x00010402, 3, 0x00006804, 5, 6, 7, 0x00004100, 8, 255].map fun e0 : Word =>
      (e0.toNat % 256, e0.toNat / 256))
      = [(1, 0x41), (2, 0x104), (3, 0), (4, 0x68), (5, 0), (6, 0), (7, 0), (0, 0x41), (8, 0), (255, 0)] := by decide

theorem test_witness_ButtonDownLatchesTheTransition :
    buttonMap small.params 0x999 = none ∧ buttonMap small.params 0x42 = some .a := by decide

/-- OtherEventsAct: an unmapped and a mapped source; room for one byte, and none. -/
theorem test_witness_OtherEventsAct :
    buttonMap small.params 0x999 = none ∧ buttonMap small.params 0x104 = some .right
      ∧ (List.replicate 31 (0 : Byte)).length < small.params.textCap
      ∧ small.params.textCap ≤ (List.replicate 32 (0 : Byte)).length := by decide

theorem test_witness_RescanIsAnIdempotentUnion : risingIds { small with opened := [3, 9] }.opened = true := by decide

/-- DrainAppliesEventsInOrder: an empty queue, and one with an event. -/
theorem test_witness_DrainAppliesEventsInOrder :
    (let s := { small with phase := .drain }
     BlockActs s s ∧ s.phase = .drain ∧ s.evq = [])
    ∧ (let s := { small with phase := .drain, evq := [⟨0x00000005, 0⟩], turns := [.block] }
       BlockActs s { s with turns := [] } ∧ s.phase = .drain ∧ s.evq = ⟨0x00000005, 0⟩ :: []) :=
  ⟨⟨blockActs_nil _ rfl, by decide⟩, blockActs_cons _ _ rfl, by decide⟩

theorem test_witness_PressAndReleaseInOneDrain :
    (let s := { small with phase := .drain, evq := [⟨0x00004101, 0⟩, ⟨0x00004102, 0⟩] }
     BlockActs s s ∧ s.phase = .drain ∧ s.evq = [⟨0x00004101, 0⟩, ⟨0x00004102, 0⟩]
      ∧ EventRec.decode ⟨0x00004101, 0⟩ = .btnDown 0x41 ∧ EventRec.decode ⟨0x00004102, 0⟩ = .btnUp 0x41
      ∧ buttonMap s.params 0x41 = some .a ∧ s.down.getLsbD (buttonIndex .a) = false) :=
  ⟨blockActs_nil _ rfl, by decide⟩

/-- AdvanceIsXorshiftAndNeverZero: from 1 (R125's example) and from a zero word. -/
theorem test_witness_AdvanceIsXorshiftAndNeverZero :
    (let s := { small with seed := 1 }
     (1 : Word) = (if s.seed = 0 then s.params.rngFix else s.seed) ∧ (0x00002001 : Word) = 1 ^^^ (1 <<< 13)
      ∧ (0x00002001 : Word) = 0x00002001 ^^^ (0x00002001 >>> 17) ∧ (0x00042021 : Word) = 0x00002001 ^^^ (0x00002001 <<< 5)
      ∧ s.params.rngFix ≠ 0)
    ∧ (0x12345678 : Word) = (if small.seed = 0 then small.params.rngFix else small.seed) := by decide

theorem test_witness_RanduRespondsTheExactQuotient : small.params.rngFix ≠ 0 := by decide

/-- RoundingIsToNearestEven: a quotient at exactly half between two significands, one below it, the least normal value,
a quotient in the subnormal range, and the greatest quotient the bit pattern is stated of. -/
theorem test_witness_RoundingIsToNearestEven :
    (nearest64 (2 ^ 54 + 2) 4 = (2 ^ 52, 52) ∧ 4 ≤ (2 ^ 54 + 2) * 2 ^ 1022 ∧ 2 ^ 54 + 2 < 4 * 2 ^ 1023)
    ∧ (nearest64 16 1000 = (0x10624DD2F1A9FC, -6) ∧ 1000 ≤ 16 * 2 ^ 1022 ∧ 16 < 1000 * 2 ^ 1023)
    ∧ (nearest64 1 (2 ^ 1022) = (2 ^ 52, -1022) ∧ 2 ^ 1022 ≤ 1 * 2 ^ 1022 ∧ 1 < 2 ^ 1022 * 2 ^ 1023)
    ∧ (nearest64 3 (2 ^ 1074) = (3, -1022) ∧ 3 * 2 ^ 1022 < 2 ^ 1074 ∧ 3 < 2 ^ 1074 * 2 ^ 1023)
    ∧ (nearest64 (2 ^ 1023 - 1) 1 = (2 ^ 53, 1022) ∧ 1 ≤ (2 ^ 1023 - 1) * 2 ^ 1022 ∧ 2 ^ 1023 - 1 < 1 * 2 ^ 1023) := by
  decide +kernel

theorem test_witness_RandnDrawsFromOneToN : 1 ≤ (1 : Word).toInt ∧ (0 : Word).toInt < 1 := by decide

/-- RandrDrawsFromLoToHi: one value, the widest legal range, an empty range, one value too many. -/
theorem test_witness_RandrDrawsFromLoToHi :
    ((10 : Word).toInt ≤ (10 : Word).toInt ∧ (10 : Word).toInt - (10 : Word).toInt + 1 ≤ 2 ^ 31 - 1)
    ∧ ((0 : Word).toInt ≤ (0x7FFFFFFE : Word).toInt ∧ (0x7FFFFFFE : Word).toInt - (0 : Word).toInt + 1 ≤ 2 ^ 31 - 1)
    ∧ (9 : Word).toInt < (10 : Word).toInt
    ∧ ((0 : Word).toInt ≤ (0x7FFFFFFF : Word).toInt
      ∧ 2 ^ 31 - 1 < (0x7FFFFFFF : Word).toInt - (0 : Word).toInt + 1) := by decide

theorem test_witness_NarrowDrawsAreExact : 2 ^ 21 ≤ 2 ^ 21 ∧ 0 ≤ 2 ^ 21 := by decide

/-- SeedChangesOnlyByDrawsAndSeedset: a command that is no draw, and a step that runs it. -/
theorem test_witness_SeedChangesOnlyByDrawsAndSeedset :
    (Instr.quit (.ok ())).op ∉ [Op.randu, .randn, .randr, .seedset]
    ∧ exec (.quit (.ok ())) small = .next ((small.setQuit true).respond [])
    ∧ ∃ t, small.turns.head? ≠ some .reset ∧ step { small with cmdPort := [0x00000005] } = .next t
      ∧ ∀ i rest, decode [0x00000005] = .command i rest → i.op ∉ [Op.randu, .randn, .randr, .seedset] := by
  refine ⟨by decide, rfl, _, by decide, rfl, ?_⟩
  intro i rest h
  have e : decode [0x00000005] = .command (.quit (.ok ())) [] := by decide
  rw [e] at h
  cases h
  decide

theorem test_witness_RunStartsTheLoop : small.phase = .setup ∧ inCallback.phase ≠ .setup := by decide

theorem test_witness_EndframeReturnsTheCallback : inCallback.phase = .callback ∧ small.phase ≠ .callback := by decide

theorem test_witness_QuitAndCbregSetTheirFlags : 1 < (2 : Byte).toNat ∧ 1 < (255 : Byte).toNat := by decide

theorem test_witness_TopAndClearinStep :
    (let s := { small with phase := .top, quit := true }
     BlockActs s s ∧ s.phase = .top ∧ s.quit = true)
    ∧ (let s := { small with phase := .top, turns := [.block, .reset] }
       BlockActs s { s with turns := [.reset] } ∧ s.phase = .top ∧ s.quit = false)
    ∧ (let s := { small with phase := .clearin }
       BlockActs s s ∧ s.phase = .clearin) :=
  ⟨⟨blockActs_nil _ rfl, by decide⟩, ⟨blockActs_cons _ _ rfl, by decide⟩, blockActs_nil _ rfl, by decide⟩

/-- TimeMeasuresAndChoosesThePhase: no time passed, with and without a callback; a clock one below. -/
theorem test_witness_TimeMeasuresAndChoosesThePhase :
    (let s := { inCallback with phase := .time }
     BlockActs s s ∧ s.phase = .time ∧ s.lastt.toNat ≤ s.now.toNat ∧ s.cbEn = true)
    ∧ (let s := { small with phase := .time, turns := [.block] }
       BlockActs s { s with turns := [] } ∧ s.phase = .time ∧ s.lastt.toNat ≤ s.now.toNat ∧ s.cbEn = false)
    ∧ (let s := { small with phase := .time, lastt := 5, now := 4 }
       BlockActs s s ∧ s.phase = .time ∧ s.now.toNat < s.lastt.toNat) :=
  ⟨⟨blockActs_nil _ rfl, by decide⟩, ⟨blockActs_cons _ _ rfl, by decide⟩, blockActs_nil _ rfl, by decide⟩

/-- VsyncWaitsForTheDisplay: DISPLAY outside VSYNC; the block's turn, DISPLAY's turn, another agent's turn in it. -/
theorem test_witness_VsyncWaitsForTheDisplay :
    (let s := { small with phase := .callback, turns := [.display] }
     s.phase ≠ .vsync ∧ s.turns = .display :: [])
    ∧ (let s := { small with phase := .vsync, turns := [.block] }
       s.phase = .vsync ∧ BlockActs s { s with turns := [] })
    ∧ (let s := { small with phase := .vsync, turns := [.display] }
       s.phase = .vsync ∧ s.turns = .display :: [])
    ∧ ∃ t, step { small with phase := .vsync, turns := [.host [5]] } = .next t
      ∧ [Turn.host [5]].head? ≠ some .display ∧ [Turn.host [5]].head? ≠ some .reset :=
  ⟨by decide, ⟨by decide, blockActs_cons _ _ rfl⟩, by decide, _, rfl, by decide, by decide⟩

/-- PacketsAreHeldOutsideAdmission: the block's turn with a packet held, HOST's turn, and DISPLAY's outside VSYNC. -/
theorem test_witness_PacketsAreHeldOutsideAdmission :
    (let s := { small with phase := .present, cmdPort := [0x00000005] }
     s.turns.head? ≠ some .reset ∧ s.phase ≠ .setup ∧ s.phase ≠ .callback ∧ ∃ t, step s = .next t)
    ∧ (let s := { small with phase := .halted, turns := [.host [0x00000005]] }
       s.turns.head? ≠ some .reset ∧ s.phase ≠ .setup ∧ s.phase ≠ .callback ∧ ∃ t, step s = .next t)
    ∧ (let s := { small with phase := .drain, turns := [.display] }
       s.turns.head? ≠ some .reset ∧ s.phase ≠ .setup ∧ s.phase ≠ .callback ∧ ∃ t, step s = .next t) :=
  ⟨⟨by decide, by decide, by decide, _, rfl⟩, ⟨by decide, by decide, by decide, _, rfl⟩,
    by decide, by decide, by decide, _, rfl⟩

theorem test_witness_RunIsOverExactlyWhenTheBlockStops :
    (let s := { small with phase := .halted }
     s.over ∧ BlockActs s s)
    ∧ (let s := { small with phase := .faulted, turns := [.block] }
       s.over ∧ BlockActs s { s with turns := [] })
    ∧ ¬ { small with phase := .vsync }.over :=
  ⟨⟨.inl rfl, blockActs_nil _ rfl⟩, ⟨.inr rfl, blockActs_cons _ _ rfl⟩, by simp [State.over]⟩

/-- OtherAgentsTouchOnlyTheirInputs: each agent's turn; the clock standing still, and going back by one. -/
theorem test_witness_OtherAgentsTouchOnlyTheirInputs :
    { small with turns := [.platform ⟨5, 0⟩] }.turns = .platform ⟨5, 0⟩ :: []
      ∧ ({ small with turns := [.host [7]] }.turns = .host [7] :: []
        ∧ atMostOnePacket ({ small with cmdPort := [0x00010064] }.cmdPort ++ [7]) = true)
      ∧ ({ small with turns := [.host [7, 8]] }.turns = .host [7, 8] :: []
        ∧ atMostOnePacket ({ small with cmdPort := [0x00010064] }.cmdPort ++ [7, 8]) = false)
      ∧ { small with turns := [.hotplug [1]] }.turns = .hotplug [1] :: []
      ∧ ({ small with turns := [.clock 9], now := 9 }.turns = .clock 9 :: [] ∧ (9 : BitVec 64).toNat ≤ (9 : BitVec 64).toNat)
      ∧ ({ small with turns := [.clock 8], now := 9 }.turns = .clock 8 :: []
        ∧ (8 : BitVec 64).toNat < (9 : BitVec 64).toNat) := by decide

theorem test_witness_ResetRestoresTheTable :
    { small with turns := [.reset, .block], phase := .faulted, err := 8 }.turns = .reset :: [.block] := by decide

theorem test_witness_EveryStepKeepsTheInvariant : small.Inv ∧ ∃ t, step small = .next t := ⟨small_inv, _, rfl⟩

theorem test_witness_DecodedDrawingNeverFaults :
    neverFaults (Instr.circ 1 (.ok (⟨-32768, -32768⟩, ⟨-32768, 0⟩))).op = true
      ∧ (Instr.circ 1 (.ok (⟨-32768, -32768⟩, ⟨-32768, 0⟩))).wf = true := by decide

/-- InputChangesOnlyInItsSteps: a step outside DRAIN, and one outside DRAIN and CLEARIN. -/
theorem test_witness_InputChangesOnlyInItsSteps :
    (let s := { small with phase := .clearin }
     (∃ t, step s = .next t) ∧ s.turns.head? ≠ some .reset ∧ s.phase ≠ .drain)
    ∧ (let s := { small with phase := .top }
       (∃ t, step s = .next t) ∧ s.turns.head? ≠ some .reset ∧ s.phase ≠ .drain ∧ s.phase ≠ .clearin) :=
  ⟨⟨⟨_, rfl⟩, by decide, by decide⟩, ⟨⟨_, rfl⟩, by decide, by decide, by decide⟩⟩

/-- OnlyResetUndoesQuitAndFault: a step with the quit flag set, and an event in FAULTED. -/
theorem test_witness_OnlyResetUndoesQuitAndFault :
    (let s := { small with phase := .clearin, quit := true }
     (∃ t, step s = .next t) ∧ s.turns.head? ≠ some .reset ∧ s.quit = true)
    ∧ (let s := { small with phase := .faulted, err := 8, turns := [.platform ⟨5, 0⟩] }
       (∃ t, step s = .next t) ∧ s.turns.head? ≠ some .reset ∧ s.phase = .faulted) :=
  ⟨⟨⟨_, rfl⟩, by decide, by decide⟩, ⟨⟨_, rfl⟩, by decide, by decide⟩⟩

end Sys2Proof.Tests
end

section
/-! ## What a command, a turn and a step can make of a state

Each inversion below is proved once; the rules about the whole machine are case analyses over it. -/

namespace Sys2Proof.Machine

/-- What a command with this header can make of a state, as an update of it: fault entry (R163), or the command's own
change and one response (R64). The conditions a change depends on stand with it. -/
inductive CommandEffect (i : Instr) (s : State) : State → Prop
  | faulted (e : ErrCode) : CommandEffect i s (s.raiseFault e i.header)
  | answered (vs : List Word) : CommandEffect i s (s.respond vs)
  | drew (ps : List Pixel) : CommandEffect i s ((s.drawAll ps).respond [])
  | cleared (c : Byte) : CommandEffect i s ((s.setFb (Memory.filled (s.w.toNat * s.h.toNat) c)).respond [])
  | resized (p : XY) (hd : dimensionsOk s.params (xVal p) (yVal p) = true) :
      CommandEffect i s ((((s.setResolution p.a p.b).setAspectEn false).sendMode).respond [])
  | resizedWithAspect (p : XY) (v : Word) (hd : dimensionsOk s.params (xVal p) (yVal p) = true) :
      CommandEffect i s (((((s.setResolution p.a p.b).setAspectEn true).setAspect v).sendMode).respond [])
  | clipped (p q : XY) :
      CommandEffect i s ((s.setClip (orderedBits p.a q.a).1 (orderedBits p.b q.b).1
        (orderedBits p.a q.a).2 (orderedBits p.b q.b).2).respond [])
  | translated (dx dy : BitVec 16) : CommandEffect i s ((s.setOffset dx dy).respond [])
  | storedGlyphs (g : Vector Glyph 128) : CommandEffect i s ((s.setGlyphs g).respond [])
  | storedColors (p : Vector Rgb 16) : CommandEffect i s ((s.setPal p).respond [])
  | advanced (vs : List Word) : CommandEffect i s (s.advance.respond vs)
  | seeded (v : Word) : CommandEffect i s ((s.setSeed v).respond [])
  | ran (hp : s.phase = .setup) : CommandEffect i s (((s.setLastt s.now).respond []).setPhase .top)
  | endedFrame (hp : s.phase = .callback) : CommandEffect i s ((s.respond []).setPhase .present)
  | quit : CommandEffect i s ((s.setQuit true).respond [])
  | setCallback (en : Bool) : CommandEffect i s ((s.setCbEn en).respond [])

/-- The answer `r` is a next state that `i` can make of `s`. -/
def Completes (i : Instr) (s : State) (r : Result) : Prop := ∃ t, r = .next t ∧ CommandEffect i s t

section Completes

variable {i : Instr} {s : State}

theorem Completes.next {t : State} (h : CommandEffect i s t) : Completes i s (.next t) := ⟨t, rfl, h⟩

theorem Completes.fault (e : ErrCode) : Completes i s (.next (s.raiseFault e i.header)) := .next (.faulted e)

theorem Completes.ite {p : Prop} [Decidable p] {r r' : Result} (h : p → Completes i s r)
    (h' : ¬ p → Completes i s r') : Completes i s (if p then r else r') := by
  split_ifs with hp
  · exact h hp
  · exact h' hp

/-- A wrong operand count is a fault too, so only the command's own rule is left to look at (R66). -/
theorem Completes.withArgs {α : Type} {a : Args α} {k : α → Result} (hk : ∀ v, Completes i s (k v)) :
    Completes i s (withArgs i a s k) := by
  cases a with
  | ok v => exact hk v
  | wrongCount nw => exact .fault .arity

end Completes

/-- Every command completes, with one of the effects above. -/
theorem exec_completes (i : Instr) (s : State) : Completes i s (exec i s) :=
  match i with
  | .setres _ => .withArgs fun p => .ite (fun hd => .next (.resized p hd)) fun _ => .fault _
  | .setresa _ => .withArgs fun v => .ite (fun hd => .next (.resizedWithAspect v.1 v.2 hd)) fun _ => .fault _
  | .run _ => .withArgs fun _ => .ite (fun _ => .fault _) fun hp => .next (.ran (not_not.mp hp))
  | .endframe _ => .withArgs fun _ => .ite (fun _ => .fault _) fun hp => .next (.endedFrame (not_not.mp hp))
  | .quit _ => .withArgs fun _ => .next .quit
  | .cbreg en _ => .withArgs fun _ => .next (.setCallback en)
  | .pset c _ => .withArgs fun p => .next (.drew [⟨c, xVal p, yVal p⟩])
  | .pget _ => .withArgs fun _ => .next (.answered _)
  | .clip _ => .withArgs fun v => .next (.clipped v.1 v.2)
  | .clipget _ => .withArgs fun _ => .next (.answered _)
  | .translate _ => .withArgs fun p => .next (.translated p.a p.b)
  | .clear c _ => .withArgs fun _ => .next (.cleared c)
  | .rect _ _ => .withArgs fun _ => .next (.drew _)
  | .rectf _ _ => .withArgs fun _ => .next (.drew _)
  | .circ _ _ => .withArgs fun _ => .ite (fun _ => .next (.drew _)) fun _ => .fault _
  | .circf _ _ => .withArgs fun _ => .ite (fun _ => .next (.drew _)) fun _ => .fault _
  | .line _ _ => .withArgs fun _ => .next (.drew _)
  | .glyphget _ _ => .withArgs fun _ => .ite (fun _ => .fault _) fun _ => .next (.answered _)
  | .glyphset _ _ => .withArgs fun _ =>
      .ite (fun _ => .fault _) fun _ => .ite (fun _ => .fault _) fun _ => .next (.storedGlyphs _)
  | .print _ _ => .withArgs fun _ => .next (.drew _)
  | .sprite _ _ => .withArgs fun _ => .ite (fun _ => .fault _) fun _ => .next (.drew _)
  | .colorget _ _ => .withArgs fun _ => .ite (fun _ => .fault _) fun _ => .next (.answered _)
  | .colorset _ _ => .withArgs fun _ => .ite (fun _ => .fault _) fun _ => .next (.storedColors _)
  | .btn _ => .withArgs fun _ => .next (.answered _)
  | .btnp _ => .withArgs fun _ => .next (.answered _)
  | .mouse _ => .withArgs fun _ => .next (.answered _)
  | .textget _ => .withArgs fun _ => .next (.answered _)
  | .randu _ => .withArgs fun _ => .next (.advanced _)
  | .randn _ => .withArgs fun _ => .ite (fun _ => .fault _) fun _ => .next (.advanced _)
  | .randr _ => .withArgs fun _ =>
      .ite (fun _ => .fault _) fun _ => .ite (fun _ => .fault _) fun _ => .next (.advanced _)
  | .seedget _ => .withArgs fun _ => .next (.answered _)
  | .seedset _ => .withArgs fun v => .next (.seeded v)

theorem commandEffect_of_exec {i : Instr} {s t : State} (h : exec i s = .next t) : CommandEffect i s t := by
  obtain ⟨t', h', he⟩ := exec_completes i s
  cases h.symm.trans h'
  exact he

/-- What the block's own turn can make of a state, by phase (R142). -/
inductive BlockMove (s : State) : State → Prop
  | awaitedPacket (hp : s.phase = .setup ∨ s.phase = .callback) (hd : decode s.cmdPort = .incomplete) : BlockMove s s
  | refusedHeader {w : Word} {rest : List Word} (hp : s.phase = .setup ∨ s.phase = .callback)
      (hd : decode s.cmdPort = .illegal w rest) : BlockMove s ((s.setCmdPort rest).raiseFault .illegal w)
  | ranCommand {i : Instr} {rest : List Word} {t : State} (hp : s.phase = .setup ∨ s.phase = .callback)
      (hd : decode s.cmdPort = .command i rest) (he : CommandEffect i (s.setCmdPort rest) t) : BlockMove s t
  | halted (hp : s.phase = .top) (hq : s.quit = true) : BlockMove s (s.setPhase .halted)
  | beganFrame (hp : s.phase = .top) (hq : s.quit = false) : BlockMove s (s.setPhase .clearin)
  | clearedInput (hp : s.phase = .clearin) : BlockMove s (clearinStep s)
  | drained (hp : s.phase = .drain) : BlockMove s (drainStep s)
  | calledBack (hp : s.phase = .time) (hn : s.lastt.toNat ≤ s.now.toNat) (hc : s.cbEn = true) :
      BlockMove s (((s.setLastt s.now).sendFrameStart (frameStart s.elapsed)).setPhase .callback)
  | skippedCallback (hp : s.phase = .time) (hn : s.lastt.toNat ≤ s.now.toNat) (hc : s.cbEn = false) :
      BlockMove s ((s.setLastt s.now).setPhase .present)
  | presented (hp : s.phase = .present) : BlockMove s (presentStep s)
  | awaitedDisplay (hp : s.phase = .vsync) : BlockMove s s

/-- What each agent's turn can make of a state (R8). -/
inductive TurnMove (s : State) : Turn → State → Prop
  | block {t : State} (h : BlockMove s t) : TurnMove s .block t
  | host (ws : List Word) (hw : atMostOnePacket (s.cmdPort ++ ws) = true) :
      TurnMove s (.host ws) (s.setCmdPort (s.cmdPort ++ ws))
  | platform (e : EventRec) : TurnMove s (.platform e) (s.setEvq (s.evq ++ [e]))
  | hotplug (ids : List Word) : TurnMove s (.hotplug ids) (s.setDevices ids)
  | displayHeard (hp : s.phase = .vsync) : TurnMove s .display (s.setPhase .top)
  | displayIgnored (hp : s.phase ≠ .vsync) : TurnMove s .display s
  | clock (n : BitVec 64) (hn : s.now.toNat ≤ n.toNat) : TurnMove s (.clock n) (s.setNow n)
  | reset : TurnMove s .reset s.applyReset

/-- What an action answers; `step` is this of the next action. -/
def Action.result : Action → Result
  | .command i s => exec i s
  | .done r => r

theorem step_eq_result (s : State) : step s = (nextAction s).result := rfl

section Inversion

variable {s t : State}

theorem topStep_move (hp : s.phase = .top) : BlockMove s (topStep s) := by
  unfold topStep
  split_ifs with hq
  · exact .halted hp hq
  · exact .beganFrame hp (Bool.eq_false_iff.mpr hq)

theorem timeStep_move (hp : s.phase = .time) (h : timeStep s = .next t) : BlockMove s t := by
  unfold timeStep at h
  split_ifs at h with hn hc <;> cases h
  · exact .calledBack hp (Nat.le_of_not_lt hn) hc
  · exact .skippedCallback hp (Nat.le_of_not_lt hn) (Bool.eq_false_iff.mpr hc)

theorem takeCommand_move (hp : s.phase = .setup ∨ s.phase = .callback) (h : (takeCommand s).result = .next t) :
    BlockMove s t := by
  cases hd : decode s.cmdPort with
  | incomplete =>
    rw [takeCommand_incomplete s hd] at h
    cases h
    exact .awaitedPacket hp hd
  | illegal w rest =>
    rw [takeCommand_illegal s w rest hd] at h
    cases h
    exact .refusedHeader hp hd
  | command i rest =>
    rw [takeCommand_command s i rest hd] at h
    exact .ranCommand hp hd (commandEffect_of_exec h)

theorem blockTurn_move (h : (blockTurn s).result = .next t) : BlockMove s t := by
  cases hp : s.phase <;> simp only [blockTurn, hp] at h
  case setup => exact takeCommand_move (.inl hp) h
  case callback => exact takeCommand_move (.inr hp) h
  case time => exact timeStep_move hp h
  all_goals cases h
  case top => exact topStep_move hp
  case clearin => exact .clearedInput hp
  case drain => exact .drained hp
  case present => exact .presented hp
  case vsync => exact .awaitedDisplay hp

theorem presentDone_move : TurnMove s .display (presentDone s) := by
  unfold presentDone
  split_ifs with hp
  · exact .displayHeard hp
  · exact .displayIgnored hp

theorem hostTurn_move {ws : List Word} (h : hostTurn s ws = .next t) : TurnMove s (.host ws) t := by
  rcases hostTurn_cases s ws with ⟨hw, e⟩ | ⟨-, e⟩ <;> cases e.symm.trans h
  exact .host ws hw

theorem clockTurn_move {n : BitVec 64} (h : clockTurn s n = .next t) : TurnMove s (.clock n) t := by
  unfold clockTurn at h
  split_ifs at h with hn
  cases h
  exact .clock n (Nat.le_of_not_lt hn)

theorem takeTurn_move {u : Turn} (h : (takeTurn s u).result = .next t) : TurnMove s u t := by
  cases u with
  | block => exact .block (blockTurn_move h)
  | host ws => exact hostTurn_move h
  | platform e => cases h; exact .platform e
  | hotplug ids => cases h; exact .hotplug ids
  | display => cases h; exact presentDone_move
  | clock n => exact clockTurn_move h
  | reset => cases h; exact .reset

/-- Everything a step can be: the turn first on the list, or the block's where the list is empty, taken on the state
with that turn used up (R8; log 1). -/
theorem step_move (h : step s = .next t) :
    ∃ u us, (s.turns = u :: us ∨ s.turns = [] ∧ u = .block) ∧ TurnMove (s.setTurns us) u t := by
  rw [step_eq_result] at h
  cases hs : s.turns with
  | nil =>
    rw [nextAction_nil s hs] at h
    refine ⟨.block, [], .inr ⟨rfl, rfl⟩, .block (blockTurn_move ?_)⟩
    rwa [show s.setTurns [] = s by rw [← hs]; rfl]
  | cons u us =>
    rw [nextAction_cons s u us hs] at h
    exact ⟨u, us, .inl rfl, takeTurn_move h⟩

theorem applyEvent_params (s : State) (e : Event) : (applyEvent s e).params = s.params :=
  (applyEvent_frame s e).1

theorem applyEvent_phase (s : State) (e : Event) : (applyEvent s e).phase = s.phase := by
  obtain ⟨-, hphase, -⟩ := applyEvent_frame s e
  exact hphase

/-- A property of states that every event keeps holds in DRAIN after the last event, before the phase moves (R147). -/
theorem drainStep_induction {P : State → Prop} (h : P (s.setEvq [])) (he : ∀ u e, P u → P (applyEvent u e)) :
    ∃ u, P u ∧ drainStep s = u.setPhase .time :=
  ⟨_, List.foldlRecOn s.evq _ h fun u hu e _ => he u e.decode hu, rfl⟩

end Inversion

/-! ## The invariant (R12 to R14, R21, R24, R27, R183) -/

section Invariant

variable {s t : State}

/-- The fields the invariant speaks of, in one tuple: one equation of it says that an update touches none of them. -/
def State.invFields (s : State) :=
  (s.params, s.phase, s.w, s.h, s.fb, (s.xl, s.yl, s.xh, s.yh), s.text, s.opened, s.err, s.cmdPort)

/-- An update of other fields keeps the invariant. -/
theorem State.Inv.of_invFields_eq (h : s.Inv) (e : t.invFields = s.invFields) : t.Inv := by
  simp only [State.invFields, Prod.mk.injEq] at e
  obtain ⟨hparams, hphase, hw, hh, hfb, ⟨hxl, hyl, hxh, hyh⟩, htext, hopened, herr, hport⟩ := e
  exact {
    params := hparams ▸ h.params
    width := hw ▸ hparams ▸ h.width
    height := hh ▸ hparams ▸ h.height
    clipX := hxl ▸ hxh ▸ h.clipX
    clipY := hyl ▸ hyh ▸ h.clipY
    memory := hfb ▸ h.memory
    cells := hfb ▸ hw ▸ hh ▸ h.cells
    text := htext ▸ hparams ▸ h.text
    opened := hopened ▸ h.opened
    fault := hphase ▸ herr ▸ h.fault
    port := hport ▸ h.port }

/-- Clip bounds put in order keep it (R14). -/
theorem State.Inv.setClip (h : s.Inv) {xl yl xh yh : BitVec 16} (hx : xl.toInt ≤ xh.toInt)
    (hy : yl.toInt ≤ yh.toInt) : (s.setClip xl yl xh yh).Inv :=
  ⟨h.params, h.width, h.height, hx, hy, h.memory, h.cells, h.text, h.opened, h.fault, h.port⟩

/-- A text within the capacity keeps it (R21). -/
theorem State.Inv.setText (h : s.Inv) {text : List Byte} (ht : text.length ≤ s.params.textCap) :
    (s.setText text).Inv :=
  ⟨h.params, h.width, h.height, h.clipX, h.clipY, h.memory, h.cells, ht, h.opened, h.fault, h.port⟩

theorem orderedBits_le (a b : BitVec 16) : (orderedBits a b).1.toInt ≤ (orderedBits a b).2.toInt := by
  unfold orderedBits
  split_ifs with h
  · exact h.le
  · exact not_lt.mp h

/-- An extent below R4's limits is not negative as a signed half. -/
theorem toInt_nonneg_of_lt {v : BitVec 16} {n : Nat} (h : v.toNat < n) (hn : n ≤ 32768) : 0 ≤ v.toInt := by
  rw [BitVec.toInt_eq_toNat_of_lt (by omega)]
  omega

/-- Reset meets the invariant under every record of parameters R4 allows (R181). -/
theorem State.resetWith_inv {p : Params} (h : p.wf = true) (n : Nat) : (State.resetWith p n).Inv := by
  obtain ⟨-, hmaxW, -, hmaxH, hw, hw', hh, hh', -⟩ := of_decide_eq_true h
  exact {
    params := h
    width := ⟨hw, hw'⟩
    height := ⟨hh, hh'⟩
    clipX := toInt_nonneg_of_lt hw' hmaxW
    clipY := toInt_nonneg_of_lt hh' hmaxH
    memory := rfl
    cells := fun _ hc => absurd hc List.not_mem_nil
    text := Nat.zero_le _
    opened := rfl
    fault := by simp [State.resetWith]
    port := rfl }

theorem State.Inv.applyReset (h : s.Inv) : s.applyReset.Inv :=
  ((State.resetWith_inv h.params (s.draws + 1)).setCmdPort s.cmdPort h.port).of_invFields_eq rfl

theorem Config.params_wf : Config.params.wf = true := by
  unfold Config.params
  split_ifs with h
  · exact h
  · decide

theorem CommandEffect.inv {i : Instr} (he : CommandEffect i s t) (h : s.Inv) : t.Inv := by
  cases he with
  | faulted e => exact h.raiseFault e _
  | drew ps => exact (h.drawAll ps).sendResponse _
  | cleared c => exact (h.setFb _ (clear_memory_wf s c) (Memory.mem_filled _ c)).sendResponse _
  | resized p hd => exact (h.setResolution p hd).of_invFields_eq rfl
  | resizedWithAspect p v hd => exact (h.setResolution p hd).of_invFields_eq rfl
  | clipped p q => exact (h.setClip (orderedBits_le _ _) (orderedBits_le _ _)).sendResponse _
  | ran hp =>
    have h' : ((s.setLastt s.now).respond []).Inv := h.of_invFields_eq rfl
    exact h'.setPhase .top (by simp [hp]) (by decide)
  | endedFrame hp => exact (h.sendResponse _).setPhase .present (by simp [hp]) (by decide)
  | answered | translated | storedGlyphs | storedColors | advanced | seeded | quit | setCallback =>
    exact h.of_invFields_eq rfl

/-- DRAIN keeps it: each event does, and none moves the phase (R147). -/
theorem State.Inv.drainStep (h : s.Inv) (hp : s.phase = .drain) : (drainStep s).Inv := by
  obtain ⟨u, ⟨hu, hup⟩, e⟩ := drainStep_induction (s := s) (P := fun u => u.Inv ∧ u.phase = .drain)
    ⟨h.of_invFields_eq rfl, hp⟩ fun u e ⟨hu, hup⟩ => ⟨hu.applyEvent e, (applyEvent_phase u e).trans hup⟩
  rw [e]
  exact hu.setPhase .time (by simp [hup]) (by decide)

theorem BlockMove.inv (hm : BlockMove s t) (h : s.Inv) : t.Inv := by
  cases hm with
  | awaitedPacket | awaitedDisplay => exact h
  | refusedHeader hp hd => exact (h.setCmdPort _ (by rw [rest_eq_nil_of_illegal h.port hd]; rfl)).raiseFault _ _
  | ranCommand hp hd he => exact he.inv (h.takeCommand hd).2
  | halted hp hq => exact h.setPhase .halted (by simp [hp]) (by decide)
  | beganFrame hp hq => exact h.setPhase .clearin (by simp [hp]) (by decide)
  | clearedInput hp =>
    have h' : (s.setPressed 0).Inv := h.of_invFields_eq rfl
    exact (h'.setText (Nat.zero_le _)).setPhase .drain (by simp [hp]) (by decide)
  | drained hp => exact h.drainStep hp
  | calledBack hp hn hc =>
    have h' : ((s.setLastt s.now).sendFrameStart (frameStart s.elapsed)).Inv := h.of_invFields_eq rfl
    exact h'.setPhase .callback (by simp [hp]) (by decide)
  | skippedCallback hp hn hc =>
    have h' : (s.setLastt s.now).Inv := h.of_invFields_eq rfl
    exact h'.setPhase .present (by simp [hp]) (by decide)
  | presented hp =>
    have h' : (s.sendDisplay (.frame s.framePixels)).Inv := h.of_invFields_eq rfl
    exact h'.setPhase .vsync (by simp [hp]) (by decide)

theorem TurnMove.inv {u : Turn} (hm : TurnMove s u t) (h : s.Inv) : t.Inv := by
  cases hm with
  | block hb => exact hb.inv h
  | host ws hw => exact h.setCmdPort _ hw
  | displayHeard hp => exact h.setPhase .top (by simp [hp]) (by decide)
  | displayIgnored => exact h
  | reset => exact h.applyReset
  | platform | hotplug | clock => exact h.of_invFields_eq rfl

end Invariant

/-- Settles O57: the turn is taken on a state that still meets the invariant, and every agent's move keeps it. -/
theorem everyStepKeepsTheInvariant : Obligations.EveryStepKeepsTheInvariant := by
  intro s t h hstep
  obtain ⟨u, us, -, hm⟩ := step_move hstep
  exact hm.inv (h.setTurns us)

/-- Settles O56: the parameters of log 2 meet R4, and reset under such parameters meets the invariant. -/
theorem resetMeetsTheInvariant : Obligations.ResetMeetsTheInvariant :=
  State.resetWith_inv Config.params_wf 0

/-! ## What only reset can undo (R4, R23, R24, R164) -/

section Persistence

variable {s t : State}

theorem CommandEffect.params_eq {i : Instr} (he : CommandEffect i s t) : t.params = s.params := by
  cases he <;> rfl

/-- QUIT only sets the flag, and no other command writes it (R153). -/
theorem CommandEffect.quit_mono {i : Instr} (he : CommandEffect i s t) (hq : s.quit = true) : t.quit = true := by
  cases he with
  | quit => rfl
  | _ => exact hq

theorem drainStep_params (s : State) : (drainStep s).params = s.params := by
  obtain ⟨u, hu, e⟩ := drainStep_induction (s := s) (P := fun u => u.params = s.params) rfl
    fun u e hu => (applyEvent_params u e).trans hu
  rw [e]
  exact hu

theorem drainStep_quit (hq : s.quit = true) : (drainStep s).quit = true := by
  obtain ⟨u, hu, e⟩ := drainStep_induction (s := s) (P := fun u => u.quit = true) hq applyEvent_quit
  rw [e]
  exact hu

theorem BlockMove.params_eq (hm : BlockMove s t) : t.params = s.params := by
  cases hm with
  | ranCommand hp hd he => exact he.params_eq
  | drained => exact drainStep_params s
  | _ => rfl

theorem BlockMove.quit_mono (hm : BlockMove s t) (hq : s.quit = true) : t.quit = true := by
  cases hm with
  | ranCommand hp hd he => exact he.quit_mono hq
  | drained => exact drainStep_quit hq
  | _ => exact hq

/-- The block has no move in FAULTED (R164). -/
theorem BlockMove.phase_ne_faulted (hm : BlockMove s t) : s.phase ≠ .faulted := by
  intro hf
  cases hm with
  | awaitedPacket hp | refusedHeader hp | ranCommand hp => simp [hf] at hp
  | halted hp | beganFrame hp | clearedInput hp | drained hp | calledBack hp | skippedCallback hp | presented hp
  | awaitedDisplay hp => cases hp.symm.trans hf

theorem TurnMove.params_eq {u : Turn} (hm : TurnMove s u t) : t.params = s.params := by
  cases hm with
  | block hb => exact hb.params_eq
  | _ => rfl

theorem TurnMove.quit_mono {u : Turn} (hm : TurnMove s u t) (hu : u ≠ .reset) (hq : s.quit = true) :
    t.quit = true := by
  cases hm with
  | block hb => exact hb.quit_mono hq
  | reset => exact absurd rfl hu
  | _ => exact hq

/-- In FAULTED the moves left but reset are those of other agents, which touch neither the phase nor the record. -/
theorem TurnMove.faulted_stable {u : Turn} (hm : TurnMove s u t) (hu : u ≠ .reset) (hf : s.phase = .faulted) :
    t.phase = .faulted ∧ t.err = s.err ∧ t.errcmd = s.errcmd := by
  cases hm with
  | block hb => exact absurd hf hb.phase_ne_faulted
  | displayHeard hp => cases hp.symm.trans hf
  | reset => exact absurd rfl hu
  | _ => exact ⟨hf, rfl, rfl⟩

end Persistence

/-- Settles O60: no move changes the parameters, and every move but reset's keeps a set quit flag and, in FAULTED, the
phase and the fault record. -/
theorem onlyResetUndoesQuitAndFault : Obligations.OnlyResetUndoesQuitAndFault := by
  intro s t hstep
  obtain ⟨u, us, hu, hm⟩ := step_move hstep
  have not_reset : s.turns.head? ≠ some .reset → u ≠ .reset := by
    rintro hs rfl
    rcases hu with hu | ⟨-, hu⟩
    · exact hs (by rw [hu]; rfl)
    · cases hu
  exact ⟨hm.params_eq, fun hs => hm.quit_mono (not_reset hs), fun hs => hm.faulted_stable (not_reset hs)⟩

end Sys2Proof.Machine
end

section
/-! ## The pixel write (R42) -/

namespace Sys2Proof.Machine

/-- Both tests of the pixel write, as one condition on the translated coordinates. -/
theorem State.inGrid_and_inClip_iff (s : State) (tx ty : Int) :
    (s.inGrid tx ty && s.inClip tx ty) = true ↔
      0 ≤ tx ∧ tx < s.w.toNat ∧ 0 ≤ ty ∧ ty < s.h.toNat
        ∧ s.xl.toInt ≤ tx ∧ tx ≤ s.xh.toInt ∧ s.yl.toInt ≤ ty ∧ ty ≤ s.yh.toInt := by
  rw [Bool.and_eq_true, s.inGrid_iff, s.inClip_iff]
  simp only [and_assoc]

/-- A call of `pset` that fails a test changes nothing at all. -/
theorem State.pset_eq_self (s : State) (c : Byte) (x y : Int) (h : s.landing x y = none) : s.pset c x y = s := by
  unfold State.pset State.plot
  rw [h]
  rfl

/-- Settles O8: the two tests on the translated coordinates decide whether the call lands, and the cells after it follow
from where it lands. -/
theorem pixelWriteIsTranslatedBoundedAndClipped : Obligations.PixelWriteIsTranslatedBoundedAndClipped := by
  rintro s c x y _ _ rfl rfl
  rw [← s.inGrid_and_inClip_iff]
  constructor
  · intro h
    have hland : s.landing x y = some (s.cellIndex (x + s.dx.toInt) (y + s.dy.toInt)) := if_pos h
    refine ⟨hland, ?_, fun a ha => ?_, rfl⟩
    · exact (s.pset_cell c x y _).trans (if_pos hland)
    · rw [s.pset_cell, if_neg]
      exact fun e => ha (Option.some.inj (e.symm.trans hland))
  · intro h
    have hland : s.landing x y = none := if_neg h
    exact ⟨hland, s.pset_eq_self c x y hland⟩

end Sys2Proof.Machine
end

section
/-! ## Headers and packets (R60, R61, R65) -/

namespace Sys2Proof

/-- The three fields are the whole header (R61). -/
theorem mkHeader_fields (h : Word) : mkHeader (opField h) (c8Field h) (nwField h) = h := by
  apply BitVec.eq_of_getLsbD_eq
  intro i hi
  simp only [mkHeader, opField, c8Field, nwField, BitVec.getLsbD_or, BitVec.getLsbD_setWidth,
    BitVec.getLsbD_shiftLeft, BitVec.getLsbD_extractLsb']
  rcases lt_or_ge i 8 with h8 | h8
  · simp [hi, h8, show i < 16 by omega]
  · rcases lt_or_ge i 16 with h16 | h16
    · simp [hi, h16, show ¬ i < 8 by omega, show i - 8 < 8 by omega, show 8 + (i - 8) = i by omega,
        show i - 8 < 32 by omega]
    · simp [hi, show ¬ i < 8 by omega, show ¬ i < 16 by omega, show ¬ i - 8 < 8 by omega,
        show i - 16 < 16 by omega, show 16 + (i - 16) = i by omega, show i - 16 < 32 by omega]

theorem opField_and (x y : Word) : opField (x &&& y) = opField x &&& opField y := BitVec.extractLsb'_and

theorem c8Field_and (x y : Word) : c8Field (x &&& y) = c8Field x &&& c8Field y := BitVec.extractLsb'_and

theorem nwField_and (x y : Word) : nwField (x &&& y) = nwField x &&& nwField y := BitVec.extractLsb'_and

/-- A header is masked field by field. -/
theorem mkHeader_and (a c a' c' : Byte) (n n' : BitVec 16) :
    mkHeader a c n &&& mkHeader a' c' n' = mkHeader (a &&& a') (c &&& c') (n &&& n') := by
  rw [← mkHeader_fields (mkHeader a c n &&& mkHeader a' c' n')]
  simp only [opField_and, c8Field_and, nwField_and, opField_mkHeader, c8Field_mkHeader, nwField_mkHeader]

theorem mkHeader_inj {a c a' c' : Byte} {n n' : BitVec 16} :
    mkHeader a c n = mkHeader a' c' n' ↔ a = a' ∧ c = c' ∧ n = n' := by
  refine ⟨fun h => ⟨?_, ?_, ?_⟩, ?_⟩
  · simpa using congrArg opField h
  · simpa using congrArg c8Field h
  · simpa using congrArg nwField h
  · rintro ⟨rfl, rfl, rfl⟩
    rfl

/-- A row's mask is all of `op`, the reserved bits of `c8` and nothing of `nw` (R65). -/
theorem rowMask_eq_mkHeader (o : Op) : Machine.rowMask o = mkHeader 0xFF o.reserved 0 := by
  cases o <;> decide

theorem code_setWidth_eq_mkHeader (op : Byte) : op.setWidth 32 = mkHeader op 0 0 := by
  simp [mkHeader]

/-- No two rows match one header, so the row found first is the row that matches (R65). -/
theorem selectRow_eq_some_iff (h : Word) (o : Op) :
    selectRow h = some o ↔ opField h = o.code ∧ c8Field h &&& o.reserved = 0 := by
  refine ⟨selectRow_some h o, fun ⟨hop, hc8⟩ => ?_⟩
  rw [← mkHeader_fields h, hop]
  exact selectRow_mkHeader o _ _ hc8

/-- Settles O1: masking leaves `op` and the reserved bits of `c8`, the two things the row's test reads. -/
theorem headerSelectsByMaskAndMatch : Obligations.HeaderSelectsByMaskAndMatch := by
  intro h o
  calc selectRow h = some o
      ↔ opField h = o.code ∧ c8Field h &&& o.reserved = 0 := selectRow_eq_some_iff h o
    _ ↔ mkHeader (opField h) (c8Field h) (nwField h) &&& mkHeader 0xFF o.reserved 0 = mkHeader o.code 0 0 := by
        rw [mkHeader_and, mkHeader_inj, show (0xFF : Byte) = BitVec.allOnes 8 from rfl, BitVec.and_allOnes]
        simp
    _ ↔ h &&& Machine.rowMask o = o.code.setWidth 32 := by
        rw [mkHeader_fields, rowMask_eq_mkHeader, code_setWidth_eq_mkHeader]

/-- A whole packet whose header selects no row is consumed, whatever follows it (R60, R66, test 1). -/
theorem decode_of_selectRow_none {h : Word} {ws : List Word} (rest : List Word)
    (hl : ws.length = (nwField h).toNat) (hs : selectRow h = none) :
    decode (h :: (ws ++ rest)) = .illegal h rest := by
  simp [decode, hs, ← hl]

/-- A whole packet whose header selects a row is consumed and given to that row (R60, R66). -/
theorem decode_of_selectRow_some {h : Word} {ws : List Word} {o : Op} (rest : List Word)
    (hl : ws.length = (nwField h).toNat) (hs : selectRow h = some o) :
    decode (h :: (ws ++ rest)) = .command (decodeRow o (c8Field h) (nwField h) ws) rest := by
  simp [decode, hs, ← hl]

end Sys2Proof
end

section
/-! ## The round trip (R60 to R67) -/

namespace Sys2Proof

variable {α : Type}

theorem Args.exists_eq_ok_of_wf {ok : α → Bool} {a : Args α} (h : a.wf ok = true) :
    ∃ v, a = .ok v ∧ ok v = true := by
  cases a with
  | ok v => exact ⟨v, rfl, h⟩
  | wrongCount nw => cases h

theorem Args.exists_eq_wrongCount {a : Args α} (h : a.wf (fun _ => true) = false) :
    ∃ nw, a = .wrongCount nw := by
  cases a with
  | ok v => cases h
  | wrongCount nw => exact ⟨nw, rfl⟩

/-- A command never sets a bit of `c8` that its row reserves (R61, R65). -/
theorem c8_and_reserved (i : Instr) : i.c8 &&& i.op.reserved = 0 := by
  cases i with
  | cbreg en a => cases en <;> simp [Instr.c8, Instr.op, Op.reserved]
  | _ => simp [Instr.c8, Instr.op, Op.reserved]

/-- What a header says of its command (R61, R65), for every command. -/
theorem header_row (i : Instr) : Laws.HeaderRow.Statement i :=
  Laws.HeaderRow.row_of_header i (c8_and_reserved i)

@[simp] theorem wordsLen_length (bs : List Byte) : (wordsLen bs).length = dataWords bs.length + 1 := by
  simp [wordsLen, packBytes_length]

/-- A payload fits the `nw` field behind `k` operand words exactly when R67 allows its length. -/
theorem dataWords_add_lt_iff (n k : Nat) (hk : k ≤ 65535) : dataWords n + k < 2 ^ 16 ↔ n ≤ maxPayload k := by
  unfold dataWords maxPayload
  omega

/-- The `nw` field counts the operand words where their number fits it. -/
theorem Args.words_length {f : α → List Word} {a : Args α} (h : ∀ v, a = .ok v → (f v).length < 2 ^ 16) :
    (a.words f).length = (a.nw f).toNat := by
  cases a with
  | ok v => exact (Nat.mod_eq_of_lt (h v rfl)).symm
  | wrongCount nw => exact List.length_replicate

/-- A well-formed command has as many operand words as its header announces (R60, R67). -/
theorem operandWords_length {i : Instr} (h : i.wf = true) : i.operandWords.length = i.nw.toNat := by
  cases i
  case glyphset c a | print c a | sprite c a =>
    refine Args.words_length ?_
    rintro v rfl
    have := (dataWords_add_lt_iff _ _ (by decide)).mpr (of_decide_eq_true h)
    simpa [wordsXyLen, wordsXyWhLen] using this
  all_goals
    refine Args.words_length fun v _ => ?_
    simp [wordsUnit, wordsXy, wordsXyWord, wordsXyXy, wordsXyRad, words1, words2, words3]

/-- The words of a payload that R67 allows read back as its bytes (R63). -/
theorem payload_packBytes_of_le {bs : List Byte} {k : Nat} (h : bs.length ≤ maxPayload k) :
    payload (BitVec.ofNat 32 bs.length) (packBytes bs) = some bs :=
  payload_packBytes bs (by unfold maxPayload at h; omega)

/-- Each row reads back what its command writes. -/
theorem decodeRow_operandWords {i : Instr} (h : i.wf = true) :
    decodeRow i.op i.c8 i.nw i.operandWords = i := by
  cases i <;> obtain ⟨v, rfl, hv⟩ := Args.exists_eq_ok_of_wf h
  case cbreg en => cases en <;> simp [decodeRow, Instr.op, Instr.c8, Instr.operandWords, Args.words, wordsUnit, args0]
  case glyphset c | print c | sprite c =>
    simp [decodeRow, Instr.op, Instr.c8, Instr.operandWords, Args.words, argsLen, argsXyLen, argsXyWhLen,
      wordsLen, wordsXyLen, wordsXyWhLen, payload_packBytes_of_le (of_decide_eq_true hv)]
  all_goals
    simp [decodeRow, Instr.op, Instr.c8, Instr.operandWords, Args.words, args0, args1, args2, args3,
      wordsUnit, wordsXy, wordsXyWord, wordsXyXy, wordsXyRad, words1, words2, words3]

/-- Settles O2: the header selects the command's row and announces its operand words, and the row reads them back. -/
theorem decodeEncodeRoundTrip : Obligations.DecodeEncodeRoundTrip := by
  intro i rest h
  obtain ⟨hrow, hc8, hnw⟩ := header_row i
  calc decode (encode i ++ rest)
      = .command (decodeRow i.op (c8Field i.header) (nwField i.header) i.operandWords) rest :=
        decode_of_selectRow_some rest (by rw [hnw, operandWords_length h]) hrow
    _ = .command i rest := by rw [hc8, hnw, decodeRow_operandWords h]

end Sys2Proof
end

section
/-! ## Wrong operand counts, and one answer for each command (R64, R66, R160) -/

namespace Sys2Proof.Machine

/-- Every meaning hands its operands to `withArgs`, which takes ERR_ARITY where they are missing (R66, test 2). -/
theorem exec_of_hasOperands_eq_false {i : Instr} (h : hasOperands i = false) (s : State) :
    exec i s = .next (s.raiseFault .arity i.header) := by
  cases i <;> (obtain ⟨nw, rfl⟩ := Args.exists_eq_wrongCount h; rfl)

/-- Settles O6: a wrong count is fault entry with the command's own header, and the codes stand in R160's table. -/
theorem wrongOperandCountFaults : Obligations.WrongOperandCountFaults :=
  ⟨by decide, fun i s h => ⟨_, exec_of_hasOperands_eq_false h s, s.faultEntered .arity i.header⟩⟩

theorem CommandEffect.answers_once {i : Instr} {s t : State} (he : CommandEffect i s t) :
    ∃ r, t.rspPort = s.rspPort ++ [r] := by
  cases he <;> exact ⟨_, rfl⟩

/-- Settles O7: whatever a command makes of the state, it ends in one response. -/
theorem everyCommandAnswersOnce : Obligations.EveryCommandAnswersOnce := by
  intro i s
  obtain ⟨t, ht, he⟩ := exec_completes i s
  obtain ⟨r, hr⟩ := he.answers_once
  exact ⟨t, r, ht, hr⟩

end Sys2Proof.Machine
end

section
/-! ## The classification of packets (R60, R66) -/

namespace Sys2Proof.Machine

variable {α : Type}

/-- What reading the operands of a packet that announces `nw` words comes to (R66, test 2): operands whose own words are
as many, where the count is `right`, or a wrong count. -/
inductive OperandsRead (write : α → List Word) (nw : BitVec 16) (right : Prop) : Args α → Prop
  | ok (hr : right) (v : α) (hv : (write v).length = nw.toNat) : OperandsRead write nw right (.ok v)
  | wrongCount (hn : ¬ right) : OperandsRead write nw right (.wrongCount nw)

section Readers

variable {write : α → List Word} {nw : BitVec 16} {ws : List Word}

theorem args0_read (hl : ws.length = nw.toNat) : OperandsRead wordsUnit nw (ws.length = 0) (args0 nw ws) := by
  match ws with
  | [] => exact .ok rfl () hl
  | _ :: _ => exact .wrongCount (by simp)

theorem args1_read {f : Word → α} (hl : ws.length = nw.toNat) (hf : ∀ u, (write (f u)).length = 1) :
    OperandsRead write nw (ws.length = 1) (args1 nw f ws) := by
  match ws with
  | [u] => exact .ok rfl (f u) ((hf u).trans hl)
  | [] | _ :: _ :: _ => exact .wrongCount (by simp)

theorem args2_read {f : Word → Word → α} (hl : ws.length = nw.toNat) (hf : ∀ u v, (write (f u v)).length = 2) :
    OperandsRead write nw (ws.length = 2) (args2 nw f ws) := by
  match ws with
  | [u, v] => exact .ok rfl (f u v) ((hf u v).trans hl)
  | [] | [_] | _ :: _ :: _ :: _ => exact .wrongCount (by simp)

theorem args3_read {f : Word → Word → Word → α} (hl : ws.length = nw.toNat)
    (hf : ∀ u v w, (write (f u v w)).length = 3) : OperandsRead write nw (ws.length = 3) (args3 nw f ws) := by
  match ws with
  | [u, v, w] => exact .ok rfl (f u v w) ((hf u v w).trans hl)
  | [] | [_] | [_, _] | _ :: _ :: _ :: _ :: _ => exact .wrongCount (by simp)

/-- As many bytes as `LEN` says are unpacked from the DATA words it asks for (R63). -/
theorem unpackBytes_length {n : Nat} {data : List Word} (h : data.length = dataWords n) :
    (unpackBytes n data).length = n := by
  have hbytes : (data.flatMap wordBytes).length = 4 * data.length := by
    simp [List.length_flatMap, wordBytes, Nat.mul_comm]
  rw [unpackBytes, List.length_take, hbytes, h, dataWords]
  omega

theorem OperandCountRight.fixed_le {o : Op} (h : OperandCountRight o ws) : o.fixed ≤ ws.length := by
  unfold OperandCountRight at h
  split at h
  · exact h.ge
  · exact h.1

/-- Where `LEN` stands last before the DATA words, the count is right when these are as many as it asks for. -/
theorem operandCountRight_iff_of_lenIndex {o : Op} {us data : List Word} {len : Word}
    (ho : lenIndex o = some us.length) (hf : o.fixed = us.length + 1) :
    OperandCountRight o (us ++ len :: data) ↔ data.length = dataWords len.toNat := by
  simp only [OperandCountRight, ho, hf, dataWords, List.length_append, List.length_cons, List.getD_append_right,
    le_refl, Nat.sub_self, List.getD_cons_zero]
  omega

/-- Operands that end in a payload are there exactly when `LEN` asks for the DATA words that follow it (R63, R66,
test 2). -/
theorem payload_read {o : Op} {us data : List Word} {len : Word} {a : Args α} {g : List Byte → α}
    (ho : lenIndex o = some us.length) (hf : o.fixed = us.length + 1)
    (hg : ∀ bs, (wordsLen bs).length = data.length + 1 → (write (g bs)).length = nw.toNat)
    (ha : a = (payload len data).elim (.wrongCount nw) (.ok ∘ g)) :
    OperandsRead write nw (OperandCountRight o (us ++ len :: data)) a := by
  rw [operandCountRight_iff_of_lenIndex ho hf, ha, payload]
  split_ifs with hd
  · exact .ok hd _ (hg _ (by rw [wordsLen_length, unpackBytes_length hd, hd]))
  · exact .wrongCount hd

theorem argsLen_read (hl : ws.length = nw.toNat) :
    OperandsRead wordsLen nw (OperandCountRight .glyphset ws) (argsLen nw ws) := by
  match ws with
  | len :: data =>
    refine payload_read (us := []) (g := id) rfl rfl (fun _ h => h.trans hl) ?_
    rw [argsLen]
    cases payload len data <;> rfl
  | [] => exact .wrongCount fun h => by simpa [Op.fixed] using h.fixed_le

theorem argsXyLen_read (hl : ws.length = nw.toNat) :
    OperandsRead wordsXyLen nw (OperandCountRight .print ws) (argsXyLen nw ws) := by
  match ws with
  | u :: len :: data =>
    refine payload_read (us := [u]) (g := fun bs => (xyOf u, bs)) rfl rfl (fun _ h => (congrArg (· + 1) h).trans hl) ?_
    rw [argsXyLen]
    cases payload len data <;> rfl
  | [] | [_] => exact .wrongCount fun h => by simpa [Op.fixed] using h.fixed_le

theorem argsXyWhLen_read (hl : ws.length = nw.toNat) :
    OperandsRead wordsXyWhLen nw (OperandCountRight .sprite ws) (argsXyWhLen nw ws) := by
  match ws with
  | u :: v :: len :: data =>
    refine payload_read (us := [u, v]) (g := fun bs => (xyOf u, whOf v, bs)) rfl rfl
      (fun _ h => (congrArg (· + 2) h).trans hl) ?_
    rw [argsXyWhLen]
    cases payload len data <;> rfl
  | [] | [_] | [_, _] => exact .wrongCount fun h => by simpa [Op.fixed] using h.fixed_le

end Readers

/-- What a row makes of a packet whose header announces its operand words truly (R65, R66). -/
structure RowRead (o : Op) (nw : BitVec 16) (ws : List Word) (i : Instr) : Prop where
  nw_eq : i.nw = nw
  hasOperands_iff : hasOperands i = true ↔ OperandCountRight o ws
  wf : OperandCountRight o ws → radReserved o ws = 0 → i.wf = true

section Rows

variable {o : Op} {c8 : Byte} {nw : BitVec 16} {ws : List Word}

/-- A row is read as its operands are; of well-formedness only the operands' own condition `ok` is left to show. -/
theorem OperandsRead.row {write : α → List Word} {i : Instr} {a : Args α} {ok : α → Bool}
    (h : OperandsRead write nw (OperandCountRight o ws) a) (hnw : i.nw = a.nw write)
    (hhas : hasOperands i = a.wf fun _ => true) (hwf : i.wf = a.wf ok)
    (hok : ∀ v, a = .ok v → (write v).length < 2 ^ 16 → radReserved o ws = 0 → ok v = true) : RowRead o nw ws i := by
  cases h with
  | ok hr v hv =>
    exact {
      nw_eq := hnw.trans (by simp [Args.nw, hv])
      hasOperands_iff := iff_of_true hhas hr
      wf := fun _ hrad => hwf.trans (hok v rfl (hv ▸ nw.isLt) hrad) }
  | wrongCount hn =>
    exact {
      nw_eq := hnw
      hasOperands_iff := iff_of_false (by simp [hhas, Args.wf]) hn
      wf := fun hr => absurd hr hn }

/-- The reserved half of the packet is the reserved half of the radius CIRC and CIRCF read (R62). -/
theorem reserved_of_args2 {p : XY × RAD} (h : args2 nw (fun u v => (xyOf u, radOf v)) ws = .ok p) :
    p.2.reserved = (ws.getD 1 0).extractLsb' 16 16 := by
  match ws with
  | [u, v] =>
    cases h
    rfl
  | [] | [_] | _ :: _ :: _ :: _ => cases h

/-- Every row, by the form of its operands. -/
theorem decodeRow_read (c8 : Byte) (hl : ws.length = nw.toNat) : RowRead o nw ws (decodeRow o c8 nw ws) := by
  cases o
  case run | endframe | quit | cbreg | clipget | clear | glyphget | colorget | btn | btnp | mouse | textget | randu
      | seedget =>
    exact OperandsRead.row (args0_read hl) rfl rfl rfl fun _ _ _ _ => rfl
  case setres | pset | pget | translate | randn | seedset =>
    exact OperandsRead.row (args1_read hl fun _ => rfl) rfl rfl rfl fun _ _ _ _ => rfl
  case setresa | clip | rect | rectf | line | randr =>
    exact OperandsRead.row (args2_read hl fun _ _ => rfl) rfl rfl rfl fun _ _ _ _ => rfl
  case colorset =>
    exact OperandsRead.row (args3_read hl fun _ _ _ => rfl) rfl rfl rfl fun _ _ _ _ => rfl
  case circ | circf =>
    exact OperandsRead.row (args2_read hl fun _ _ => rfl) rfl rfl rfl
      fun v hv _ h0 => beq_iff_eq.mpr ((reserved_of_args2 hv).trans h0)
  case glyphset =>
    exact OperandsRead.row (argsLen_read hl) rfl rfl rfl fun bs _ h _ =>
      decide_eq_true ((dataWords_add_lt_iff _ 1 (by decide)).mp (wordsLen_length bs ▸ h))
  case print =>
    exact OperandsRead.row (argsXyLen_read hl) rfl rfl rfl fun v _ h _ =>
      decide_eq_true ((dataWords_add_lt_iff _ 2 (by decide)).mp (by simpa [wordsXyLen] using h))
  case sprite =>
    exact OperandsRead.row (argsXyWhLen_read hl) rfl rfl rfl fun v _ h _ =>
      decide_eq_true ((dataWords_add_lt_iff _ 3 (by decide)).mp (by simpa [wordsXyWhLen] using h))

theorem decodeRow_op (o : Op) (c8 : Byte) (nw : BitVec 16) (ws : List Word) : (decodeRow o c8 nw ws).op = o := by
  cases o <;> rfl

/-- A row that matched loses nothing of `c8`: what it does not read of the field is 0 (R65). -/
theorem decodeRow_c8 (h : c8 &&& o.reserved = 0) : (decodeRow o c8 nw ws).c8 = c8 := by
  cases o
  case cbreg =>
    have hbit : ∀ b : Byte, b &&& 0xFE = 0 → (if b.getLsbD 0 then 1 else 0) = b := by decide
    exact hbit c8 h
  case pset | clear | rect | rectf | circ | circf | line | glyphget | glyphset | print | sprite | colorget | colorset =>
    rfl
  all_goals exact h.symm.trans BitVec.and_allOnes

/-- The command a packet is read as has the packet's own header (R61). -/
theorem decodeRow_header {h : Word} (hs : selectRow h = some o) (hl : ws.length = (nwField h).toNat) :
    (decodeRow o (c8Field h) (nwField h) ws).header = h := by
  obtain ⟨hop, hc8⟩ := selectRow_some h o hs
  rw [Instr.header, decodeRow_op, decodeRow_c8 hc8, (decodeRow_read _ hl).nw_eq, ← hop, mkHeader_fields]

/-- Reserved bits of a `RAD` word are ERR_ILLEGAL (R66, test 3). -/
theorem exec_of_radReserved_ne_zero (hcount : hasOperands (decodeRow o c8 nw ws) = true) (hrad : radReserved o ws ≠ 0)
    (s : State) : exec (decodeRow o c8 nw ws) s = .next (s.raiseFault .illegal (decodeRow o c8 nw ws).header) := by
  have ho : o = .circ ∨ o = .circf := by
    by_contra hn
    exact hrad (if_neg hn)
  rcases ho with rfl | rfl
  all_goals
    obtain ⟨p, hp, -⟩ := Args.exists_eq_ok_of_wf hcount
    rw [decodeRow, hp]
    exact if_neg (reserved_of_args2 hp ▸ hrad)

end Rows

section Step

variable {s u : State}

theorem BlockActs.cmdPort_eq (h : BlockActs s u) : u.cmdPort = s.cmdPort := by
  rcases h with ⟨_, rfl⟩ | ⟨_, _, rfl⟩ <;> rfl

/-- A step of a block that admits commands takes the next packet (R143). -/
theorem step_of_blockActs (hb : BlockActs s u) (hp : s.phase = .setup ∨ s.phase = .callback) :
    step s = (takeCommand u).result := by
  rw [step_eq_result, nextAction_of_blockActs hb, blockTurn_admitting u (hb.phase_eq ▸ hp)]

/-- An answer that is fault entry with this header, named by what it leaves (R163). -/
theorem exists_faultEntered {r : Result} {e : ErrCode} {h h' : Word} (hr : r = .next (s.raiseFault e h'))
    (hh : h' = h) : ∃ t, r = .next t ∧ FaultEntered s t e h :=
  ⟨_, hr, hh ▸ s.faultEntered e h'⟩

end Step

/-- Settles O4: the packet is read by its row, if it has one, and the command read has the packet's header, so each test
that fails is fault entry with that header. -/
theorem packetsAreClassifiedInOrder : Obligations.PacketsAreClassifiedInOrder := by
  intro s u h ws rest hb hp hport hl
  have hu : u.cmdPort = h :: (ws ++ rest) := hb.cmdPort_eq.trans hport
  have hstep : step s = (takeCommand u).result := step_of_blockActs hb hp
  constructor
  · intro hs
    rw [takeCommand_illegal u h rest (hu ▸ decode_of_selectRow_none rest hl hs)] at hstep
    exact exists_faultEntered hstep rfl
  · intro o hs
    have hd := decode_of_selectRow_some rest hl hs
    rw [takeCommand_command u _ rest (hu ▸ hd)] at hstep
    have hheader := decodeRow_header hs hl
    obtain ⟨-, hcount, hwf⟩ := decodeRow_read (o := o) (c8Field h) hl
    refine ⟨fun hn => ?_, fun hr hrad => ?_, fun hr hrad => ?_⟩
    · have hno := Bool.eq_false_iff.mpr (mt hcount.mp hn)
      exact exists_faultEntered (hstep.trans (exec_of_hasOperands_eq_false hno _)) hheader
    · exact exists_faultEntered (hstep.trans (exec_of_radReserved_ne_zero (hcount.mpr hr) hrad _)) hheader
    · exact ⟨_, decodeRow_op _ _ _ _, hheader, hwf hr hrad, hport ▸ hd, hstep⟩

end Sys2Proof.Machine
end

section
/-! ## Event records (R68) -/

namespace Sys2Proof

/-- The low byte of a record's first word selects its kind. -/
theorem EventRec.kind_eq_iff (e : EventRec) (k : Byte) : e.e0.extractLsb' 0 8 = k ↔ e.e0.toNat % 256 = k.toNat := by
  rw [← BitVec.toNat_inj, BitVec.extractLsb'_toNat, Nat.shiftRight_zero]

/-- The other 24 bits are its argument. -/
theorem EventRec.arg_toNat (e : EventRec) : (e.e0.extractLsb' 8 24).toNat = e.e0.toNat / 256 := by
  rw [BitVec.extractLsb'_toNat, Nat.shiftRight_eq_div_pow]
  omega

theorem lowHalf_toNat (w : Word) : (lowHalf w).toNat = w.toNat % 65536 := by
  rw [lowHalf, BitVec.extractLsb'_toNat, Nat.shiftRight_zero]

theorem highHalf_toNat (w : Word) : (highHalf w).toNat = w.toNat / 65536 := by
  rw [highHalf, BitVec.extractLsb'_toNat, Nat.shiftRight_eq_div_pow]
  omega

/-- A kind outside the table passes every test of the decoder. -/
theorem EventRec.decode_of_kind_not_listed {e : EventRec} (h : e.e0.toNat % 256 = 0 ∨ 8 ≤ e.e0.toNat % 256) :
    e.decode = .other (e.e0.extractLsb' 0 8) := by
  have hne : ∀ k : Byte, 1 ≤ k.toNat → k.toNat ≤ 7 → e.e0.extractLsb' 0 8 ≠ k := by
    intro k hlo hhi hk
    have := (e.kind_eq_iff k).mp hk
    omega
  simp [EventRec.decode, hne]

/-- Settles O32: the kind byte chooses the branch of the decoder, and each field is a slice of its word. -/
theorem eventRecordsAreReadByKind : Obligations.EventRecordsAreReadByKind := by
  rintro e _ _ rfl rfl
  have kind : ∀ k : Byte, e.e0.toNat % 256 = k.toNat → e.e0.extractLsb' 0 8 = k := fun k => (e.kind_eq_iff k).mpr
  refine ⟨fun h => ⟨_, ?_, e.arg_toNat⟩, fun h => ⟨_, ?_, e.arg_toNat⟩,
    fun h => ⟨_, _, ?_, lowHalf_toNat e.e1, highHalf_toNat e.e1⟩,
    fun h => ⟨(e.e0.extractLsb' 8 24).extractLsb' 0 8, ?_, ?_⟩, fun h => ?_, fun h => ?_, fun h => ?_,
    fun h => ⟨_, EventRec.decode_of_kind_not_listed h, (e.kind_eq_iff _).mp rfl |>.symm⟩⟩
  · simp [EventRec.decode, kind 1 h]
  · simp [EventRec.decode, kind 2 h]
  · simp [EventRec.decode, kind 3 h]
  · simp [EventRec.decode, kind 4 h]
  · rw [BitVec.extractLsb'_toNat, e.arg_toNat, Nat.shiftRight_zero]
  · simp [EventRec.decode, kind 5 h]
  · simp [EventRec.decode, kind 6 h]
  · simp [EventRec.decode, kind 7 h]

end Sys2Proof
end

section
/-! ## The framebuffer and clipping commands (R80 to R86) -/

namespace Sys2Proof.Machine

section

variable (s : State)

/-! ### The meaning of each command on its operands -/

theorem exec_pset (c : Byte) (p : XY) :
    exec (.pset c (.ok p)) s = .next ((s.pset c p.a.toInt p.b.toInt).respond []) := rfl

theorem exec_pget (p : XY) :
    exec (.pget (.ok p)) s = .next (s.respond [(s.pget p.a.toInt p.b.toInt).setWidth 32]) := rfl

theorem exec_clip (p q : XY) :
    exec (.clip (.ok (p, q))) s = .next ((s.setClip (orderedBits p.a q.a).1 (orderedBits p.b q.b).1
      (orderedBits p.a q.a).2 (orderedBits p.b q.b).2).respond []) := rfl

theorem exec_clipget :
    exec (.clipget (.ok ())) s =
      .next (s.respond [s.xl.signExtend 32, s.yl.signExtend 32, s.xh.signExtend 32, s.yh.signExtend 32]) := rfl

theorem exec_translate (p : XY) :
    exec (.translate (.ok p)) s = .next ((s.setOffset p.a p.b).respond []) := rfl

theorem dimensionsOk_iff (ps : Params) (w h : Int) :
    dimensionsOk ps w h = true ↔ 0 < w ∧ w < ps.maxW ∧ 0 < h ∧ h < ps.maxH :=
  decide_eq_true_iff

theorem exec_setres_of_dimensionsOk {p : XY} (h : dimensionsOk s.params p.a.toInt p.b.toInt = true) :
    exec (.setres (.ok p)) s =
      .next ((((s.setResolution p.a p.b).setAspectEn false).sendMode).respond []) :=
  if_pos h

theorem exec_setres_of_not_dimensionsOk {p : XY} (h : ¬ dimensionsOk s.params p.a.toInt p.b.toInt = true) :
    exec (.setres (.ok p)) s = .next (s.raiseFault .dimension (Instr.setres (.ok p)).header) :=
  if_neg h

theorem exec_setresa_of_dimensionsOk {p : XY} (v : Word) (h : dimensionsOk s.params p.a.toInt p.b.toInt = true) :
    exec (.setresa (.ok (p, v))) s =
      .next (((((s.setResolution p.a p.b).setAspectEn true).setAspect v).sendMode).respond []) :=
  if_pos h

theorem exec_setresa_of_not_dimensionsOk {p : XY} (v : Word)
    (h : ¬ dimensionsOk s.params p.a.toInt p.b.toInt = true) :
    exec (.setresa (.ok (p, v))) s = .next (s.raiseFault .dimension (Instr.setresa (.ok (p, v))).header) :=
  if_neg h

/-! ### What `pget` reads (R43) -/

theorem State.pget_of_inGrid {x y : Int} (h : s.inGrid x y = true) :
    s.pget x y = (s.cell (s.cellIndex x y)).setWidth 4 :=
  if_pos h

theorem State.pget_of_not_inGrid {x y : Int} (h : ¬ s.inGrid x y = true) : s.pget x y = 0 :=
  if_neg h

/-- A response leaves the grid, so `pget` reads on as before. -/
@[simp] theorem State.respond_pget (vs : List Word) (x y : Int) : (s.respond vs).pget x y = s.pget x y := rfl

/-- A call of `pset` that lands is read back, at the translated coordinates, as the low half of its byte (R42, R43). -/
theorem State.pget_pset_of_landing {x y : Int} {a : Nat} (c : Byte) (h : s.landing x y = some a) :
    (s.pset c x y).pget (x + s.dx.toInt) (y + s.dy.toInt) = c.setWidth 4 := by
  obtain ⟨hgrid, -, rfl⟩ := (s.landing_eq_some_iff x y a).mp h
  calc (s.pset c x y).pget (x + s.dx.toInt) (y + s.dy.toInt)
      = ((s.pset c x y).cell (s.cellIndex (x + s.dx.toInt) (y + s.dy.toInt))).setWidth 4 :=
        (s.pset c x y).pget_of_inGrid hgrid
    _ = c.setWidth 4 := by rw [s.pset_cell, if_pos h]

/-- Keeping the low four bits is masking with 15. -/
theorem setWidth_four_setWidth (c : Byte) : (c.setWidth 4).setWidth 32 = (c &&& 15).setWidth 32 := by
  apply BitVec.eq_of_toNat_eq
  have hmask : (c &&& 15).toNat = c.toNat % 2 ^ 4 := Nat.and_two_pow_sub_one_eq_mod c.toNat 4
  rw [BitVec.toNat_setWidth, BitVec.toNat_setWidth, BitVec.toNat_setWidth, hmask]

/-! ### Ordered bounds (R84) -/

theorem orderedBits_fst_toInt (a b : BitVec 16) : (orderedBits a b).1.toInt = min a.toInt b.toInt := by
  unfold orderedBits
  split_ifs with h
  · exact (min_eq_right h.le).symm
  · exact (min_eq_left (not_lt.mp h)).symm

theorem orderedBits_snd_toInt (a b : BitVec 16) : (orderedBits a b).2.toInt = max a.toInt b.toInt := by
  unfold orderedBits
  split_ifs with h
  · exact (max_eq_left h.le).symm
  · exact (max_eq_right (not_lt.mp h)).symm

/-- A bound as a result word is the same integer (R85). -/
theorem signExtend_word_toInt (b : BitVec 16) : (b.signExtend 32).toInt = b.toInt :=
  BitVec.toInt_signExtend_of_le (by decide)

/-- Every cell of a new resolution reads as a byte of the new draw (R13, R80). -/
theorem State.setResolution_cell (w h : BitVec 16) (a : Nat) :
    (s.setResolution w h).cell a = Config.freeCell (s.draws + 1) a := rfl

end

/-- Settles O11: the byte PSET leaves in the cell is what `pget` reads at the translated place. -/
theorem writtenPixelReadsBackMasked : Obligations.WrittenPixelReadsBackMasked := by
  intro s c p q a hland hx hy
  refine ⟨_, _, exec_pset s c p, exec_pget _ q, ?_⟩
  rw [State.respond_pget, hx, hy, s.pget_pset_of_landing c hland, setWidth_four_setWidth]
  exact State.onlyAnswered _ _

/-- Settles O9: one `pset` call is the drawing of a list of one point. -/
theorem psetDrawsItsPoint : Obligations.PsetDrawsItsPoint := by
  intro s c p
  refine ⟨rfl, _, exec_pset s c p, s.drewPoints_of_mem c [(p.a.toInt, p.b.toInt)] _ fun x y => ?_⟩
  simp

/-- Settles O10: the bounds test of `pget` decides between the cell's low four bits and 0. -/
theorem pgetReadsTheMaskedCell : Obligations.PgetReadsTheMaskedCell := by
  intro s p
  refine ⟨rfl, _, _, exec_pget s p, s.onlyAnswered _, ?_⟩
  rw [← s.inGrid_iff]
  constructor
  · intro h
    rw [s.pget_of_inGrid h]
    rw [BitVec.toNat_setWidth, BitVec.toNat_setWidth]
    exact Nat.mod_eq_of_lt (by omega)
  · intro h
    rw [s.pget_of_not_inGrid h]
    rfl

/-- Settles O12: each axis keeps its lesser bound first, and the bounds are responded as the integers they are. -/
theorem clipStoresAndClipgetRespondsTheBounds : Obligations.ClipStoresAndClipgetRespondsTheBounds := by
  constructor
  · intro s p q
    exact ⟨rfl, _, exec_clip s p q, orderedBits_fst_toInt p.a q.a, orderedBits_snd_toInt p.a q.a,
      orderedBits_fst_toInt p.b q.b, orderedBits_snd_toInt p.b q.b, rfl, fun _ => rfl, rfl⟩
  · intro s
    exact ⟨rfl, _, _, _, _, _, exec_clipget s, s.onlyAnswered _, signExtend_word_toInt s.xl,
      signExtend_word_toInt s.yl, signExtend_word_toInt s.xh, signExtend_word_toInt s.yh⟩

/-- Settles O13: the offset is the only field TRANSLATE sets besides its response. -/
theorem translateReplacesTheOffset : Obligations.TranslateReplacesTheOffset := by
  intro s p
  exact ⟨rfl, _, exec_translate s p, rfl, rfl, rfl, fun _ => rfl, rfl⟩

/-- Settles O14: the dimension test decides between the new resolution and the fault. -/
theorem setresMakesANewGrid : Obligations.SetresMakesANewGrid := by
  intro s p
  rw [← dimensionsOk_iff]
  refine ⟨rfl, fun h => ?_, fun h => ?_⟩
  · exact ⟨_, exec_setres_of_dimensionsOk s h, rfl, rfl, s.setResolution_cell p.a p.b, rfl, rfl, rfl, rfl, rfl, rfl,
      rfl, rfl, rfl⟩
  · exact exists_faultEntered (exec_setres_of_not_dimensionsOk s h) rfl

/-- Settles O15: as SETRES, with the aspect word stored before the mode is announced. -/
theorem setresaMakesANewGridWithAspect : Obligations.SetresaMakesANewGridWithAspect := by
  intro s p v
  rw [← dimensionsOk_iff]
  refine ⟨rfl, fun h => ?_, fun h => ?_⟩
  · exact ⟨_, exec_setresa_of_dimensionsOk s v h, rfl, rfl, s.setResolution_cell p.a p.b, rfl, rfl, rfl, rfl, rfl, rfl,
      rfl, rfl, rfl, rfl⟩
  · exact exists_faultEntered (exec_setresa_of_not_dimensionsOk s v h) rfl

end Sys2Proof.Machine
end

section
/-! ## The rasterizer's fills and outlines (R90 to R94) -/

namespace Sys2Proof.Machine

section

variable (s : State) (c : Byte)

/-! ### The meaning of each command on its operands -/

theorem exec_clear :
    exec (.clear c (.ok ())) s = .next ((s.setFb (Memory.filled (s.w.toNat * s.h.toNat) c)).respond []) := rfl

theorem exec_rectf (p q : XY) :
    exec (.rectf c (.ok (p, q))) s =
      .next ((s.drawPoints c (rectfPoints p.a.toInt p.b.toInt q.a.toInt q.b.toInt)).respond []) := rfl

theorem exec_rect (p q : XY) :
    exec (.rect c (.ok (p, q))) s =
      .next ((s.drawPoints c (rectPoints p.a.toInt p.b.toInt q.a.toInt q.b.toInt)).respond []) := rfl

theorem exec_circf_of_reserved_eq_zero (p : XY) {r : RAD} (h : r.reserved = 0) :
    exec (.circf c (.ok (p, r))) s =
      .next ((s.drawPoints c (circfPoints p.a.toInt p.b.toInt r.r.toInt)).respond []) :=
  if_pos h

theorem exec_circf_of_reserved_ne_zero (p : XY) {r : RAD} (h : r.reserved ≠ 0) :
    exec (.circf c (.ok (p, r))) s = .next (s.raiseFault .illegal (Instr.circf c (.ok (p, r))).header) :=
  if_neg h

theorem exec_circ_of_reserved_eq_zero (p : XY) {r : RAD} (h : r.reserved = 0) :
    exec (.circ c (.ok (p, r))) s =
      .next ((s.drawPoints c (circPoints p.a.toInt p.b.toInt r.r.toInt)).respond []) :=
  if_pos h

theorem exec_circ_of_reserved_ne_zero (p : XY) {r : RAD} (h : r.reserved ≠ 0) :
    exec (.circ c (.ok (p, r))) s = .next (s.raiseFault .illegal (Instr.circ c (.ok (p, r))).header) :=
  if_neg h

/-! ### The cells after CLEAR, and the points of each outline -/

/-- After CLEAR's fill the cells below `n` hold the colour byte; the others have no written byte (R90). -/
theorem State.setFb_filled_cell (n a : Nat) :
    (s.setFb (Memory.filled n c)).cell a = if a < n then c else Config.freeCell s.draws a := by
  rw [State.setFb_cell, Memory.read?_filled]
  split_ifs <;> rfl

/-- An address the memory does not list has no written byte. -/
theorem Memory.read?_eq_none {m : Memory} {a : Nat} (h : ∀ d ∈ m, d.1 ≠ a) : m.read? a = none := by
  induction m with
  | nil => rfl
  | cons d m ih =>
    obtain ⟨hd, hm⟩ := List.forall_mem_cons.mp h
    exact (if_neg (Ne.symm hd)).trans (ih hm)

/-- Outside the grid nothing is ever written, so a cell there reads as the free byte of the draw (R13). -/
theorem State.Inv.cell_of_le {s : State} (h : s.Inv) {a : Nat} (ha : s.w.toNat * s.h.toNat ≤ a) :
    s.cell a = Config.freeCell s.draws a := by
  have hnone : s.fb.read? a = none := Memory.read?_eq_none fun d hd => by have := h.cells d hd; omega
  rw [State.cell, hnone, Option.getD_none]

theorem mem_rectfPoints (x1 y1 x2 y2 x y : Int) :
    (x, y) ∈ rectfPoints x1 y1 x2 y2 ↔ min x1 x2 ≤ x ∧ x ≤ max x1 x2 ∧ min y1 y2 ≤ y ∧ y ≤ max y1 y2 := by
  rw [rectfPoints, mem_boxPoints, ordered_fst, ordered_snd, ordered_fst, ordered_snd]

/-- The rows and sides RECT visits are the box's points on one of the four edge lines (R92). -/
theorem mem_rectPoints (x1 y1 x2 y2 x y : Int) :
    (x, y) ∈ rectPoints x1 y1 x2 y2 ↔
      (min x1 x2 ≤ x ∧ x ≤ max x1 x2 ∧ min y1 y2 ≤ y ∧ y ≤ max y1 y2) ∧ (x = x1 ∨ x = x2 ∨ y = y1 ∨ y = y2) := by
  simp only [rectPoints, List.mem_append, List.mem_flatMap, mem_intRange, List.mem_cons, List.not_mem_nil, or_false,
    Prod.mk.injEq, ordered_fst, ordered_snd]
  constructor
  · rintro (⟨u, hu, ⟨rfl, rfl⟩ | ⟨rfl, rfl⟩⟩ | ⟨v, hv, ⟨rfl, rfl⟩ | ⟨rfl, rfl⟩⟩) <;> omega
  · rintro ⟨hbox, hedge⟩
    by_cases hrow : y = min y1 y2 ∨ y = max y1 y2
    · exact .inl ⟨x, by omega, hrow.imp (⟨rfl, ·⟩) (⟨rfl, ·⟩)⟩
    · exact .inr ⟨y, by omega, by omega⟩

/-- CIRCF's inner bound is 0, which every squared distance meets (R93). -/
theorem mem_circfPoints (cx cy r x y : Int) :
    (x, y) ∈ circfPoints cx cy r ↔ 0 ≤ r ∧ (x - cx) * (x - cx) + (y - cy) * (y - cy) ≤ r * r := by
  have hsq : 0 ≤ (x - cx) * (x - cx) + (y - cy) * (y - cy) := add_nonneg (mul_self_nonneg _) (mul_self_nonneg _)
  rw [circfPoints, mem_annulusPoints, and_iff_right hsq]

end

/-- Settles O16: the fill lists every cell of the grid, and under the invariant no cell outside it was ever written. -/
theorem clearFillsTheGrid : Obligations.ClearFillsTheGrid := by
  intro s c hs
  refine ⟨rfl, _, exec_clear s c, fun a ha => ?_, fun a ha => ?_, rfl, rfl⟩
  · exact (s.setFb_filled_cell c _ a).trans (if_pos ha)
  · exact ((s.setFb_filled_cell c _ a).trans (if_neg ha.not_gt)).trans (hs.cell_of_le ha).symm

/-- Settles O17: RECTF draws a list that holds exactly the points of the box. -/
theorem rectfDrawsTheBox : Obligations.RectfDrawsTheBox := fun s c p q =>
  ⟨rfl, _, exec_rectf s c p q, s.drewPoints_of_mem c _ _ (mem_rectfPoints _ _ _ _)⟩

/-- Settles O18: RECT draws a list that holds exactly the points of the border. -/
theorem rectDrawsTheBorder : Obligations.RectDrawsTheBorder := fun s c p q =>
  ⟨rfl, _, exec_rect s c p q, s.drewPoints_of_mem c _ _ (mem_rectPoints _ _ _ _)⟩

/-- Settles O19: the reserved half decides between the disk and the fault. -/
theorem circfDrawsTheDisk : Obligations.CircfDrawsTheDisk := fun s c p _ =>
  ⟨rfl, fun h => ⟨_, exec_circf_of_reserved_eq_zero s c p h, s.drewPoints_of_mem c _ _ (mem_circfPoints _ _ _)⟩,
    fun h => exists_faultEntered (exec_circf_of_reserved_ne_zero s c p h) rfl⟩

/-- Settles O20: the reserved half decides between the annulus and the fault. -/
theorem circDrawsTheAnnulus : Obligations.CircDrawsTheAnnulus := fun s c p _ =>
  ⟨rfl, fun h => ⟨_, exec_circ_of_reserved_eq_zero s c p h, s.drewPoints_of_mem c _ _ (mem_annulusPoints _ _ _ _)⟩,
    fun h => exists_faultEntered (exec_circ_of_reserved_ne_zero s c p h) rfl⟩

end Sys2Proof.Machine
end

section
/-! ## The path of LINE (R95)

The loop moves one unit in the major axis (the longer of the two differences) in every iteration. The error term, up to
its sign, is a remainder modulo the major difference, and the quotient counts the units moved in the minor axis. -/

namespace Sys2Proof.Machine

/-! ### The loop as an iterated step -/

/-- What changes during one LINE: the point and the error term before it is plotted. -/
structure LinePos where
  x : Int
  y : Int
  err : Int

/-- The point plotted. -/
def LinePos.point (p : LinePos) : Int × Int := (p.x, p.y)

/-- The point is the end point, where the loop stops. -/
def LineSetup.AtEnd (l : LineSetup) (p : LinePos) : Prop := p.x = l.x2 ∧ p.y = l.y2

/-- The step of the loop: both tests look at the error term as it was before. -/
def LineSetup.step (l : LineSetup) (p : LinePos) : LinePos where
  x := if -l.dx < p.err then p.x + l.sx else p.x
  y := if p.err < l.dy then p.y + l.sy else p.y
  err := p.err - (if -l.dx < p.err then l.dy else 0) + (if p.err < l.dy then l.dx else 0)

/-- An iteration of the loop that does not stop takes one step. -/
theorem lineLoop_of_not_atEnd {l : LineSetup} {p : LinePos} (h : ¬ l.AtEnd p) (n : Nat) :
    lineLoop l (n + 1) p.x p.y p.err = p.point :: lineLoop l n (l.step p).x (l.step p).y (l.step p).err := by
  have herr : (if p.err < l.dy then (if -l.dx < p.err then p.err - l.dy else p.err) + l.dx
      else if -l.dx < p.err then p.err - l.dy else p.err) = (l.step p).err := by
    simp only [LineSetup.step]
    split_ifs <;> omega
  have hcond : ¬ (p.x = l.x2 ∧ p.y = l.y2) := h
  simp only [lineLoop, if_neg hcond, herr]
  rfl

/-- The last iteration allowed plots its point, whether or not it is the end. -/
theorem lineLoop_one (l : LineSetup) (p : LinePos) : lineLoop l 1 p.x p.y p.err = [p.point] := by
  simp [lineLoop, LinePos.point]

/-- While the end point is not met, the loop plots the points of the iterated step. -/
theorem lineLoop_eq_map {l : LineSetup} {n : Nat} {p : LinePos} (h : ∀ k < n, ¬ l.AtEnd (l.step^[k] p)) :
    lineLoop l (n + 1) p.x p.y p.err = (List.range (n + 1)).map fun k => (l.step^[k] p).point := by
  induction n generalizing p with
  | zero => exact lineLoop_one l p
  | succ n ih =>
    have h0 : ¬ l.AtEnd p := h 0 n.succ_pos
    have hrest : ∀ k < n, ¬ l.AtEnd (l.step^[k] (l.step p)) := fun k hk => h (k + 1) (Nat.succ_lt_succ hk)
    rw [lineLoop_of_not_atEnd h0, ih hrest, List.range_succ_eq_map (n := n + 1), List.map_cons, List.map_map]
    rfl

/-! ### The two axes: quotient and remainder by the major difference -/

section Axes

/-- The remainder after `k` units along the major difference `M`, for a minor difference `m`. -/
def majorErr (M m : Int) (k : Nat) : Int := (M / 2 - k * m) % M

/-- The number of units moved in the minor axis after `k` units in the major one. -/
def minorUnits (M m : Int) (k : Nat) : Int := -((M / 2 - k * m) / M)

variable {M m : Int}

theorem majorErr_nonneg (hM : 0 < M) (k : Nat) : 0 ≤ majorErr M m k := Int.emod_nonneg _ hM.ne'

theorem majorErr_lt (hM : 0 < M) (k : Nat) : majorErr M m k < M := Int.emod_lt_of_pos _ hM

/-- The dividend, taken apart. -/
theorem majorErr_sub_minorUnits (M m : Int) (k : Nat) : majorErr M m k - M * minorUnits M m k = M / 2 - k * m := by
  have := Int.emod_add_mul_ediv (M / 2 - k * m) M
  unfold majorErr minorUnits
  linarith

/-- Quotient and remainder are determined by the dividend. -/
theorem minorUnits_majorErr_eq (hM : 0 < M) {k : Nat} {u e : Int} (h : e - M * u = M / 2 - k * m) (h0 : 0 ≤ e)
    (h1 : e < M) : minorUnits M m k = u ∧ majorErr M m k = e := by
  obtain ⟨hq, hr⟩ := (Int.ediv_emod_unique hM (a := M / 2 - k * m) (q := -u) (r := e)).mpr
    ⟨by linarith, h0, h1⟩
  exact ⟨by rw [minorUnits, hq, neg_neg], hr⟩

theorem minorUnits_majorErr_zero (hM : 0 < M) : minorUnits M m 0 = 0 ∧ majorErr M m 0 = M / 2 :=
  minorUnits_majorErr_eq hM (by simp) (by omega) (by omega)

/-- One more unit in the major axis moves the minor one exactly when the remainder is below the minor difference. -/
theorem minorUnits_majorErr_succ (hM : 0 < M) (h0 : 0 ≤ m) (hm : m ≤ M) (k : Nat) :
    minorUnits M m (k + 1) = minorUnits M m k + (if majorErr M m k < m then 1 else 0)
    ∧ majorErr M m (k + 1) = majorErr M m k - m + (if majorErr M m k < m then M else 0) := by
  have hnn := majorErr_nonneg (m := m) hM k
  have hlt := majorErr_lt (m := m) hM k
  have hk := majorErr_sub_minorUnits M m k
  apply minorUnits_majorErr_eq hM
  · push_cast
    split_ifs <;> linarith
  · split_ifs <;> omega
  · split_ifs <;> omega

/-- At the end of the major axis the minor one has been walked whole. -/
theorem minorUnits_self (m : Int) {n : Nat} (hn : 0 < n) : minorUnits n m n = m :=
  (minorUnits_majorErr_eq (e := n / 2) (by omega) rfl (by omega) (by omega)).1

end Axes

/-! ### Where the loop stands after each iteration -/

section Iterates

variable {l : LineSetup} (x y : Int) (k : Nat)

/-- A flat line: `x` is the major axis. -/
theorem LineSetup.step_iterate_of_flat (h0 : 0 ≤ l.dy) (h : l.dy < l.dx) :
    l.step^[k] ⟨x, y, l.dx / 2⟩ =
      ⟨x + k * l.sx, y + minorUnits l.dx l.dy k * l.sy, majorErr l.dx l.dy k⟩ := by
  have hM : 0 < l.dx := by omega
  induction k with
  | zero =>
    obtain ⟨hu, he⟩ := minorUnits_majorErr_zero (m := l.dy) hM
    simp [hu, he]
  | succ k ih =>
    obtain ⟨hu, he⟩ := minorUnits_majorErr_succ hM h0 h.le k
    have hmajor : -l.dx < majorErr l.dx l.dy k := by have := majorErr_nonneg (m := l.dy) hM k; omega
    rw [Function.iterate_succ_apply', ih, hu, he]
    simp only [LineSetup.step, if_pos hmajor, LinePos.mk.injEq, and_true]
    refine ⟨by push_cast; ring, ?_⟩
    split_ifs <;> ring

/-- A steep line: `y` is the major axis, and the error term is the remainder with its sign changed. -/
theorem LineSetup.step_iterate_of_steep (h0 : 0 ≤ l.dx) (h : l.dx ≤ l.dy) (hM : 0 < l.dy) :
    l.step^[k] ⟨x, y, -(l.dy / 2)⟩ =
      ⟨x + minorUnits l.dy l.dx k * l.sx, y + k * l.sy, -majorErr l.dy l.dx k⟩ := by
  induction k with
  | zero =>
    obtain ⟨hu, he⟩ := minorUnits_majorErr_zero (m := l.dx) hM
    simp [hu, he]
  | succ k ih =>
    obtain ⟨hu, he⟩ := minorUnits_majorErr_succ hM h0 h k
    have hmajor : -majorErr l.dy l.dx k < l.dy := by have := majorErr_nonneg (m := l.dx) hM k; omega
    rw [Function.iterate_succ_apply', ih, hu, he]
    simp only [LineSetup.step, if_pos hmajor, LinePos.mk.injEq, neg_lt_neg_iff]
    refine ⟨?_, by push_cast; ring, ?_⟩ <;> split_ifs <;> ring

end Iterates

section Path

variable (x1 y1 x2 y2 : Int)

/-- Where LINE's loop stands after `k` steps. -/
def linePos (k : Nat) : LinePos :=
  (lineSetup x1 y1 x2 y2).step^[k] ⟨x1, y1, lineErr (lineSetup x1 y1 x2 y2).dx (lineSetup x1 y1 x2 y2).dy⟩

/-- The number of steps, `max(dx,dy)`. -/
def lineSteps : Nat := max (x2 - x1).natAbs (y2 - y1).natAbs

theorem linePos_succ (k : Nat) : linePos x1 y1 x2 y2 (k + 1) = (lineSetup x1 y1 x2 y2).step (linePos x1 y1 x2 y2 k) :=
  Function.iterate_succ_apply' _ _ _

/-- A difference walked by units of its sign leads from the one coordinate to the other. -/
theorem add_natAbs_mul_unit (a b : Int) : a + ((b - a).natAbs : Int) * (if a < b then 1 else -1) = b := by
  split_ifs <;> omega

/-- Fewer units do not lead there. -/
theorem add_mul_unit_ne {a b : Int} {k : Nat} (h : k < (b - a).natAbs) :
    a + (k : Int) * (if a < b then 1 else -1) ≠ b := by
  split_ifs <;> omega

variable {x1 y1 x2 y2}

theorem linePos_of_flat (h : (y2 - y1).natAbs < (x2 - x1).natAbs) (k : Nat) :
    linePos x1 y1 x2 y2 k =
      ⟨x1 + k * (if x1 < x2 then 1 else -1),
        y1 + minorUnits (x2 - x1).natAbs (y2 - y1).natAbs k * (if y1 < y2 then 1 else -1),
        majorErr (x2 - x1).natAbs (y2 - y1).natAbs k⟩ := by
  have hd : (lineSetup x1 y1 x2 y2).dy < (lineSetup x1 y1 x2 y2).dx := Int.ofNat_lt.mpr h
  have herr : lineErr (lineSetup x1 y1 x2 y2).dx (lineSetup x1 y1 x2 y2).dy = (lineSetup x1 y1 x2 y2).dx / 2 := by
    rw [lineErr, if_pos hd]
    exact Int.tdiv_eq_ediv_of_nonneg (Int.natCast_nonneg _)
  rw [linePos, herr]
  exact LineSetup.step_iterate_of_flat x1 y1 k (Int.natCast_nonneg _) hd

theorem linePos_of_steep (h : (x2 - x1).natAbs ≤ (y2 - y1).natAbs) (h0 : 0 < (y2 - y1).natAbs) (k : Nat) :
    linePos x1 y1 x2 y2 k =
      ⟨x1 + minorUnits (y2 - y1).natAbs (x2 - x1).natAbs k * (if x1 < x2 then 1 else -1),
        y1 + k * (if y1 < y2 then 1 else -1),
        -majorErr (y2 - y1).natAbs (x2 - x1).natAbs k⟩ := by
  have hd : (lineSetup x1 y1 x2 y2).dx ≤ (lineSetup x1 y1 x2 y2).dy := Int.ofNat_le.mpr h
  have herr : lineErr (lineSetup x1 y1 x2 y2).dx (lineSetup x1 y1 x2 y2).dy = -((lineSetup x1 y1 x2 y2).dy / 2) := by
    rw [lineErr, if_neg hd.not_gt, Int.neg_tdiv]
    exact congrArg Neg.neg (Int.tdiv_eq_ediv_of_nonneg (Int.natCast_nonneg _))
  rw [linePos, herr]
  exact LineSetup.step_iterate_of_steep x1 y1 k (Int.natCast_nonneg _) hd (Int.ofNat_lt.mpr h0)

/-- A line of at least one step is flat or steep. -/
theorem flat_or_steep (h : 0 < lineSteps x1 y1 x2 y2) :
    (y2 - y1).natAbs < (x2 - x1).natAbs
      ∨ (x2 - x1).natAbs ≤ (y2 - y1).natAbs ∧ 0 < (y2 - y1).natAbs := by
  unfold lineSteps at h
  omega

/-- Before the last step the major coordinate is not yet the end point's. -/
theorem not_atEnd_linePos {k : Nat} (hk : k < lineSteps x1 y1 x2 y2) :
    ¬ (lineSetup x1 y1 x2 y2).AtEnd (linePos x1 y1 x2 y2 k) := by
  rintro ⟨hx, hy⟩
  rcases flat_or_steep (Nat.zero_lt_of_lt hk) with h | ⟨h, h0⟩
  · rw [linePos_of_flat h] at hx
    rw [lineSteps, max_eq_left h.le] at hk
    exact add_mul_unit_ne hk hx
  · rw [linePos_of_steep h h0] at hy
    rw [lineSteps, max_eq_right h] at hk
    exact add_mul_unit_ne hk hy

/-- After the last step both coordinates are the end point's. -/
theorem point_linePos_lineSteps : (linePos x1 y1 x2 y2 (lineSteps x1 y1 x2 y2)).point = (x2, y2) := by
  rcases Nat.eq_zero_or_pos (lineSteps x1 y1 x2 y2) with h0 | hpos
  · rw [h0]
    unfold lineSteps at h0
    exact Prod.ext (show x1 = x2 by omega) (show y1 = y2 by omega)
  rcases flat_or_steep hpos with h | ⟨h, h0⟩
  · rw [lineSteps, max_eq_left h.le, linePos_of_flat h, minorUnits_self _ (Nat.zero_lt_of_lt h)]
    exact Prod.ext (add_natAbs_mul_unit x1 x2) (add_natAbs_mul_unit y1 y2)
  · rw [lineSteps, max_eq_right h, linePos_of_steep h h0, minorUnits_self _ h0]
    exact Prod.ext (add_natAbs_mul_unit x1 x2) (add_natAbs_mul_unit y1 y2)

variable (x1 y1 x2 y2)

/-- The points of LINE are those of its first `max(dx,dy) + 1` positions (R95). -/
theorem linePoints_eq_map :
    linePoints x1 y1 x2 y2 =
      (List.range (lineSteps x1 y1 x2 y2 + 1)).map fun k => (linePos x1 y1 x2 y2 k).point := by
  have hfuel : (max (lineSetup x1 y1 x2 y2).dx (lineSetup x1 y1 x2 y2).dy).toNat = lineSteps x1 y1 x2 y2 := by
    simp only [lineSetup, lineSteps]
    omega
  simp only [linePoints, hfuel]
  exact lineLoop_eq_map fun k hk => not_atEnd_linePos hk

theorem linePoints_length : (linePoints x1 y1 x2 y2).length = lineSteps x1 y1 x2 y2 + 1 := by
  rw [linePoints_eq_map, List.length_map, List.length_range]

variable {x1 y1 x2 y2}

theorem linePoints_getElem? {k : Nat} (h : k ≤ lineSteps x1 y1 x2 y2) :
    (linePoints x1 y1 x2 y2)[k]? = some (linePos x1 y1 x2 y2 k).point := by
  rw [linePoints_eq_map, List.getElem?_map, List.getElem?_range (Nat.lt_succ_of_le h), Option.map_some]

theorem linePoints_getElem?_eq_some_iff {k : Nat} {p : Int × Int} :
    (linePoints x1 y1 x2 y2)[k]? = some p ↔ k ≤ lineSteps x1 y1 x2 y2 ∧ (linePos x1 y1 x2 y2 k).point = p := by
  constructor
  · intro h
    have hk : k ≤ lineSteps x1 y1 x2 y2 := by
      have hlt := (List.getElem?_eq_some_iff.mp h).1
      rw [linePoints_length] at hlt
      omega
    exact ⟨hk, Option.some.inj ((linePoints_getElem? hk).symm.trans h)⟩
  · rintro ⟨hk, rfl⟩
    exact linePoints_getElem? hk

/-! ### Which axis moves -/

/-- In a line of at least one step, the test for `x` passes where `x` is a longest axis and fails where it has no
length; so does the test for `y`. -/
theorem linePos_tests (hpos : 0 < lineSteps x1 y1 x2 y2) (k : Nat) :
    ((y2 - y1).natAbs ≤ (x2 - x1).natAbs → -((x2 - x1).natAbs : Int) < (linePos x1 y1 x2 y2 k).err)
    ∧ ((x2 - x1).natAbs ≤ (y2 - y1).natAbs → (linePos x1 y1 x2 y2 k).err < (y2 - y1).natAbs)
    ∧ (-((x2 - x1).natAbs : Int) < (linePos x1 y1 x2 y2 k).err → x1 ≠ x2)
    ∧ ((linePos x1 y1 x2 y2 k).err < (y2 - y1).natAbs → y1 ≠ y2) := by
  rcases flat_or_steep hpos with h | ⟨h, h0⟩
  · have hnn := majorErr_nonneg (M := (x2 - x1).natAbs) (m := (y2 - y1).natAbs) (by omega) k
    rw [linePos_of_flat h]
    dsimp only
    omega
  · have hnn := majorErr_nonneg (M := (y2 - y1).natAbs) (m := (x2 - x1).natAbs) (by omega) k
    have hlt := majorErr_lt (M := (y2 - y1).natAbs) (m := (x2 - x1).natAbs) (by omega) k
    rw [linePos_of_steep h h0]
    dsimp only
    omega

/-- One axis of a step: a coordinate that a test moves by one unit toward its end, or keeps. -/
theorem unit_step {a b u : Int} {moves : Prop} [Decidable moves] (hne : moves → a ≠ b) :
    ((if moves then u + (if a < b then 1 else -1) else u) = u
      ∨ (if moves then u + (if a < b then 1 else -1) else u) = u + (b - a).sign)
    ∧ (moves → (if moves then u + (if a < b then 1 else -1) else u) = u + (b - a).sign) := by
  by_cases hm : moves
  · have hunit : (if a < b then 1 else -1) = (b - a).sign := by
      rcases lt_or_gt_of_ne (hne hm) with hlt | hgt
      · rw [if_pos hlt, Int.sign_eq_one_of_pos (by omega)]
      · rw [if_neg hgt.not_gt, Int.sign_eq_neg_one_of_neg (by omega)]
    rw [if_pos hm, hunit]
    exact ⟨.inr rfl, fun _ => rfl⟩
  · exact ⟨.inl (if_neg hm), fun h => absurd h hm⟩

end Path

theorem exec_line (s : State) (c : Byte) (p q : XY) :
    exec (.line c (.ok (p, q))) s =
      .next ((s.drawPoints c (linePoints p.a.toInt p.b.toInt q.a.toInt q.b.toInt)).respond []) := rfl

/-- Settles O21: the path is the list of LINE's points, and the error terms are those of the iterated step. -/
theorem lineDrawsThePathOfTheErrorTerm : Obligations.LineDrawsThePathOfTheErrorTerm := by
  rintro s c p q _ _ _ _ rfl rfl rfl rfl
  generalize hx1 : p.a.toInt = x1
  generalize hy1 : p.b.toInt = y1
  generalize hx2 : q.a.toInt = x2
  generalize hy2 : q.b.toInt = y2
  refine ⟨rfl, _, linePoints x1 y1 x2 y2, fun k => (linePos x1 y1 x2 y2 k).err, ?_,
    s.drewPoints_of_mem c _ _ fun _ _ => Iff.rfl, ?_, linePoints_getElem? (Nat.zero_le _), rfl, fun k x y hk => ?_⟩
  · rw [exec_line, hx1, hy1, hx2, hy2]
  · rw [linePoints_length, lineSteps]
    omega
  obtain ⟨hle, hpt⟩ := linePoints_getElem?_eq_some_iff.mp hk
  obtain ⟨rfl, rfl⟩ := Prod.mk.inj hpt
  constructor
  · intro hend
    have hlast : ¬ k < lineSteps x1 y1 x2 y2 := fun hlt => not_atEnd_linePos hlt hend
    rw [List.getElem?_eq_none_iff, linePoints_length]
    omega
  · intro hend
    have hlt : k < lineSteps x1 y1 x2 y2 := by
      refine lt_of_le_of_ne hle ?_
      rintro rfl
      exact hend (Prod.mk.inj point_linePos_lineSteps)
    rw [linePoints_getElem? hlt]
    simp only [linePos_succ]
    exact ⟨rfl, rfl⟩

/-- Settles O22: the tests on the error term say which axis moves. -/
theorem linePathReachesItsEnd : Obligations.LinePathReachesItsEnd := by
  intro x1 y1 x2 y2
  refine ⟨linePoints_length x1 y1 x2 y2, linePoints_getElem? (Nat.zero_le _),
    (linePoints_getElem? le_rfl).trans (congrArg some point_linePos_lineSteps), fun k p q hp hq => ?_⟩
  obtain ⟨-, rfl⟩ := linePoints_getElem?_eq_some_iff.mp hp
  obtain ⟨hk, rfl⟩ := linePoints_getElem?_eq_some_iff.mp hq
  obtain ⟨hmovesx, hmovesy, hnex, hney⟩ := linePos_tests (Nat.zero_lt_of_lt hk) k
  obtain ⟨hx, hxmajor⟩ := unit_step (u := (linePos x1 y1 x2 y2 k).x) hnex
  obtain ⟨hy, hymajor⟩ := unit_step (u := (linePos x1 y1 x2 y2 k).y) hney
  rw [linePos_succ]
  exact ⟨hx, hy, fun h => hxmajor (hmovesx h), fun h => hymajor (hmovesy h)⟩

end Sys2Proof.Machine
end

section
/-! ## The font and sprite commands (R100 to R104) -/

namespace Sys2Proof

/-! ### Packets whose last operand is a payload (R63, R65) -/

/-- A packet is its header's three fields and the operand words (R60, R61). -/
theorem encode_of_nw {i : Instr} {n : BitVec 16} (h : i.nw = n) :
    encode i = mkHeader i.op.code i.c8 n :: i.operandWords := by
  rw [encode, Instr.header, h]

/-- The LEN word and the DATA words of a payload, behind `k` other operand words (R63, R67). -/
theorem wordsLen_length_add (bs : List Byte) (k : Nat) :
    (wordsLen bs).length + k = k + 1 + (bs.length + 3) / 4 := by
  rw [wordsLen_length, dataWords]
  omega

theorem encode_glyphset (code : Byte) (bs : List Byte) :
    encode (.glyphset code (.ok bs)) =
      mkHeader 0x31 code (BitVec.ofNat 16 (1 + (bs.length + 3) / 4)) :: wordsLen bs :=
  encode_of_nw (congrArg (BitVec.ofNat 16) (wordsLen_length_add bs 0))

theorem encode_print (c : Byte) (p : XY) (text : List Byte) :
    encode (.print c (.ok (p, text))) =
      mkHeader 0x32 c (BitVec.ofNat 16 (2 + (text.length + 3) / 4)) :: p.word :: wordsLen text :=
  encode_of_nw (congrArg (BitVec.ofNat 16) (wordsLen_length_add text 1))

theorem encode_sprite (tr : Byte) (p : XY) (z : WH) (data : List Byte) :
    encode (.sprite tr (.ok (p, z, data))) =
      mkHeader 0x33 tr (BitVec.ofNat 16 (3 + (data.length + 3) / 4)) :: p.word :: z.word :: wordsLen data :=
  encode_of_nw (congrArg (BitVec.ofNat 16) (wordsLen_length_add data 2))

/-- Eight bytes fill two DATA words, byte 0 lowest in the first (R63). -/
theorem packBytes_of_length_eq_eight {bs : List Byte} (h : bs.length = 8) :
    ∃ w0 w1, packBytes bs = [w0, w1] ∧ wordBytes w0 ++ wordBytes w1 = bs := by
  obtain ⟨w0, w1, hw⟩ := List.length_eq_two.mp ((packBytes_length bs).trans (congrArg dataWords h))
  have hbytes := take_flatMap_packBytes bs
  rw [hw, h] at hbytes
  exact ⟨w0, w1, hw, hbytes⟩

end Sys2Proof

namespace Sys2Proof.Machine

/-! ### The meaning of each command on its operands -/

section

variable (s : State)

theorem exec_glyphget_of_le {code : Byte} (h : code.toNat ≤ 127) :
    exec (.glyphget code (.ok ())) s = .next (s.respond (packBytes (s.glyphAt (code.setWidth 7)).toList)) :=
  if_neg h.not_gt

theorem exec_glyphget_of_gt {code : Byte} (h : 127 < code.toNat) :
    exec (.glyphget code (.ok ())) s = .next (s.raiseFault .glyph (Instr.glyphget code (.ok ())).header) :=
  if_pos h

theorem exec_glyphset_of_le {code : Byte} {bs : List Byte} (h : code.toNat ≤ 127) (hl : bs.length = 8) :
    exec (.glyphset code (.ok bs)) s =
      .next ((s.setGlyphs (s.glyph.set (code.setWidth 7).toNat (glyphOfBytes bs) (code.setWidth 7).isLt)).respond []) :=
  (if_neg h.not_gt).trans (if_neg (not_not.mpr hl))

theorem exec_glyphset_of_gt {code : Byte} (bs : List Byte) (h : 127 < code.toNat) :
    exec (.glyphset code (.ok bs)) s = .next (s.raiseFault .glyph (Instr.glyphset code (.ok bs)).header) :=
  if_pos h

theorem exec_glyphset_of_length_ne {code : Byte} {bs : List Byte} (h : code.toNat ≤ 127) (hl : bs.length ≠ 8) :
    exec (.glyphset code (.ok bs)) s = .next (s.raiseFault .length (Instr.glyphset code (.ok bs)).header) :=
  (if_neg h.not_gt).trans (if_pos hl)

theorem exec_print (c : Byte) (p : XY) (text : List Byte) :
    exec (.print c (.ok (p, text))) s =
      .next ((s.drawAll (printPixels s c text p.a.toInt p.b.toInt)).respond []) := rfl

theorem exec_sprite_of_length_eq (tr : Byte) (p : XY) {z : WH} {data : List Byte}
    (h : data.length = z.w.toNat * z.h.toNat) :
    exec (.sprite tr (.ok (p, z, data))) s =
      .next ((s.drawAll
        (spritePixels s.params tr p.a.toInt p.b.toInt z.w.toNat z.h.toNat data)).respond []) :=
  if_neg (not_not.mpr h)

theorem exec_sprite_of_length_ne (tr : Byte) (p : XY) {z : WH} {data : List Byte}
    (h : data.length ≠ z.w.toNat * z.h.toNat) :
    exec (.sprite tr (.ok (p, z, data))) s =
      .next (s.raiseFault .length (Instr.sprite tr (.ok (p, z, data))).header) :=
  if_pos h

end

/-! ### Glyphs, their codes and their rows (R17, R100, R101) -/

/-- A glyph is read at the code masked to seven bits, which is always a code of the table (R17, R102). -/
theorem State.getElem?_glyph (s : State) (code : Byte) :
    s.glyph[code.toNat % 128]? = some (s.glyphAt (code.setWidth 7)) :=
  Vector.getElem?_eq_getElem (Nat.mod_lt _ (by decide))

/-- A code up to 127 is its own low seven bits. -/
theorem toNat_setWidth_seven {code : Byte} (h : code.toNat ≤ 127) : (code.setWidth 7).toNat = code.toNat := by
  rw [BitVec.toNat_setWidth, Nat.mod_eq_of_lt (by omega)]

theorem getElem?_glyphRow (g : Glyph) {r : Nat} (hr : r < 8) : g[r]? = some (glyphRow g r) := by
  rw [glyphRow, Vector.getElem?_eq_getElem hr, Option.getD_some]

/-- The rows of a glyph made of eight bytes are these bytes (R101). -/
theorem toList_glyphOfBytes {bs : List Byte} (h : bs.length = 8) : (glyphOfBytes bs).toList = bs := by
  apply List.ext_getElem
  · rw [Vector.length_toList, h]
  · intro r _ hr
    simp [glyphOfBytes, hr]

/-- Settles O23: the glyph's eight rows are packed in two result words, or the code is refused. -/
theorem glyphgetRespondsTheRows : Obligations.GlyphgetRespondsTheRows := by
  intro s code
  refine ⟨rfl, fun h => ?_, fun h => exists_faultEntered (exec_glyphget_of_gt s h) rfl⟩
  obtain ⟨w0, w1, hw, hbytes⟩ := packBytes_of_length_eq_eight (s.glyphAt (code.setWidth 7)).length_toList
  have hread := s.getElem?_glyph code
  rw [Nat.mod_eq_of_lt (Nat.lt_succ_of_le h)] at hread
  exact ⟨_, _, w0, w1, exec_glyphget_of_le s h, hw ▸ s.onlyAnswered _, hread, hbytes⟩

/-- Settles O24: the code is tested before the length, and a `set` of the table changes its own entry only. -/
theorem glyphsetReplacesOneGlyph : Obligations.GlyphsetReplacesOneGlyph := by
  intro s code bs
  refine ⟨encode_glyphset code bs, fun h hl => ?_, fun h => exists_faultEntered (exec_glyphset_of_gt s bs h) rfl,
    fun h hl => exists_faultEntered (exec_glyphset_of_length_ne s h hl) rfl⟩
  have hcode := toNat_setWidth_seven h
  refine ⟨_, glyphOfBytes bs, exec_glyphset_of_le s h hl, ?_, toList_glyphOfBytes hl, fun k hk => ?_, rfl,
    fun _ => rfl, rfl⟩
  · exact (Vector.getElem?_set (code.setWidth 7).isLt).trans (if_pos hcode)
  · exact (Vector.getElem?_set (code.setWidth 7).isLt).trans (if_neg fun e => hk (e.symm.trans hcode))

/-! ### Drawings of one colour, and of colours that differ (R96) -/

/-- Calls of `pset` with one colour byte, at exactly the points of `pts`, and a response. -/
theorem State.drewPoints_drawAll (s : State) (c : Byte) {ps : List Pixel} {pts : Int → Int → Prop}
    (h : ∀ q, q ∈ ps ↔ q.c = c ∧ pts q.x q.y) : DrewPoints s ((s.drawAll ps).respond []) c pts := by
  refine ⟨rfl, fun x y a hp hl => ?_, fun a ha => ?_, rfl⟩
  · exact s.drawAll_cell_of_some ps a c ⟨⟨c, x, y⟩, (h _).mpr ⟨rfl, hp⟩, hl⟩ fun q hq _ => ((h q).mp hq).1
  · exact s.drawAll_cell_of_none ps a fun q hq => ha q.x q.y ((h q).mp hq).2

/-- Two calls of `pset` that land in one cell have the same coordinates (R41, R42). -/
theorem State.landing_inj {s : State} {x y x' y' : Int} {a : Nat} (h : s.landing x y = some a)
    (h' : s.landing x' y' = some a) : x = x' ∧ y = y' := by
  obtain ⟨hgrid, -, ha⟩ := (s.landing_eq_some_iff x y a).mp h
  obtain ⟨hgrid', -, ha'⟩ := (s.landing_eq_some_iff x' y' a).mp h'
  have := s.cellIndex_inj _ _ _ _ hgrid hgrid' (ha.trans ha'.symm)
  omega

/-! ### The pixels of PRINT (R102) -/

theorem mem_glyphPixels (c : Byte) (g : Glyph) (x y : Int) (q : Pixel) :
    q ∈ glyphPixels c g x y ↔ ∃ r i : Nat, r < 8 ∧ i < 8 ∧ (glyphRow g r).getLsbD i = true
      ∧ q = ⟨c, x + i, y + r⟩ := by
  simp only [glyphPixels, List.mem_flatMap, List.mem_filterMap, List.mem_range, Option.ite_none_right_eq_some,
    Option.some.injEq]
  constructor
  · rintro ⟨r, hr, i, hi, hbit, rfl⟩
    exact ⟨r, i, hr, hi, hbit, rfl⟩
  · rintro ⟨r, i, hr, hi, hbit, rfl⟩
    exact ⟨r, hr, i, hi, hbit, rfl⟩

/-- Byte `k` of a text draws its glyph `8 * k` columns to the right of the first. -/
theorem mem_printPixels (s : State) (c : Byte) (text : List Byte) (x y : Int) (q : Pixel) :
    q ∈ printPixels s c text x y ↔ ∃ (k : Nat) (b : Byte), text[k]? = some b
      ∧ q ∈ glyphPixels c (s.glyphAt (b.setWidth 7)) (x + 8 * k) y := by
  induction text generalizing x with
  | nil => simp [printPixels]
  | cons b text ih =>
    have hx (k : Nat) : x + 8 + 8 * (k : Int) = x + 8 * ((k + 1 : Nat) : Int) := by omega
    rw [printPixels, List.mem_append, ih]
    refine Iff.trans ?_ Nat.or_exists_add_one
    simp only [List.getElem?_cons_zero, List.getElem?_cons_succ, Option.some.injEq, exists_eq_left', hx,
      Nat.cast_zero, mul_zero, add_zero]

/-- Settles O25: the list PRINT draws holds exactly the set bits of the glyphs of its bytes. -/
theorem printDrawsTheSetBits : Obligations.PrintDrawsTheSetBits := by
  intro s c p text
  refine ⟨encode_print c p text, _, exec_print s c p text, s.drewPoints_drawAll c fun q => ?_⟩
  simp only [mem_printPixels, mem_glyphPixels]
  constructor
  · rintro ⟨k, b, hk, r, i, hr, hi, hbit, rfl⟩
    exact ⟨rfl, k, r, i, b, _, _, hk, hr, hi, s.getElem?_glyph b, getElem?_glyphRow _ hr, hbit, rfl, rfl⟩
  · obtain ⟨d, x, y⟩ := q
    rintro ⟨rfl, k, r, i, b, row, g, hk, hr, hi, hg, hrow, hbit, rfl, rfl⟩
    obtain rfl := Option.some.inj ((s.getElem?_glyph b).symm.trans hg)
    obtain rfl := Option.some.inj ((getElem?_glyphRow _ hr).symm.trans hrow)
    exact ⟨k, b, hk, r, i, hr, hi, hbit, rfl⟩

/-! ### The colours of sprite bytes (R18, R103) -/

/-- A byte below 128 is decoded by the fixed map (R103). -/
theorem spriteColor_of_lt (p : Params) {k : Nat} (h : k < 128) :
    spriteColor p (BitVec.ofNat 8 k) = scm (BitVec.ofNat 7 k) := by
  have hk : (BitVec.ofNat 8 k).toNat = k := Nat.mod_eq_of_lt (by omega)
  rw [spriteColor, hk, if_pos h, BitVec.setWidth_ofNat_of_le (by decide)]

/-- A byte from 128 up is decoded as SPRITE_HI says (R103). -/
theorem spriteColor_add_128 (p : Params) {k : Nat} (h : k < 128) :
    spriteColor p (BitVec.ofNat 8 (128 + k)) = if p.spriteHi = .mask7 then scm (BitVec.ofNat 7 k) else 0 := by
  have hk : (BitVec.ofNat 8 (128 + k)).toNat = 128 + k := Nat.mod_eq_of_lt (by omega)
  have hlow : (BitVec.ofNat 8 (128 + k)).setWidth 7 = BitVec.ofNat 7 k := by
    rw [BitVec.setWidth_ofNat_of_le (by decide)]
    exact BitVec.eq_of_toNat_eq (Nat.add_mod_left 128 k)
  rw [spriteColor, hk, if_neg (by omega), hlow]
  cases p.spriteHi <;> rfl

/-- The fixed map on an index (R18). -/
theorem scm_ofNat {k : Nat} (h : k < 128) :
    scm (BitVec.ofNat 7 k) =
      if 0x31 ≤ k ∧ k ≤ 0x39 then BitVec.ofNat 4 (k - 0x30)
      else if 0x41 ≤ k ∧ k ≤ 0x46 then BitVec.ofNat 4 (k - 0x41 + 10)
      else if 0x61 ≤ k ∧ k ≤ 0x66 then BitVec.ofNat 4 (k - 0x61 + 10)
      else 0 := by
  have hk : (BitVec.ofNat 7 k).toNat = k := Nat.mod_eq_of_lt h
  simp only [scm, hk]

/-- Settles O26: the tests of the map decide each byte below 128, and SPRITE_HI the others. -/
theorem spriteBytesDecodeToColours : Obligations.SpriteBytesDecodeToColours := by
  intro p k
  refine ⟨fun h1 h9 => ?_, fun h10 h15 => ⟨?_, ?_⟩, fun hk hdigit hupper hlower => ?_, fun hk => ?_⟩
  · rw [spriteColor_of_lt p (by omega), scm_ofNat (by omega), if_pos (by omega), Nat.add_sub_cancel_left]
  · rw [spriteColor_of_lt p (by omega), scm_ofNat (by omega), if_neg (by omega), if_pos (by omega),
      Nat.add_sub_cancel_left, Nat.sub_add_cancel h10]
  · rw [spriteColor_of_lt p (by omega), scm_ofNat (by omega), if_neg (by omega), if_neg (by omega),
      if_pos (by omega), Nat.add_sub_cancel_left, Nat.sub_add_cancel h10]
  · rw [spriteColor_of_lt p hk, scm_ofNat hk, if_neg hdigit, if_neg hupper, if_neg hlower]
  · rw [spriteColor_add_128 p hk, spriteColor_of_lt p hk]

/-! ### The pixels of SPRITE (R104) -/

theorem mem_spritePixels (p : Params) (tr : Byte) (x y : Int) (w h : Nat) (data : List Byte) (q : Pixel) :
    q ∈ spritePixels p tr x y w h data ↔ ∃ i j : Nat, i < w ∧ j < h ∧ spriteByte p w data i j ≠ tr
      ∧ q = ⟨spriteByte p w data i j, x + i, y + j⟩ := by
  simp only [spritePixels, List.mem_flatMap, List.mem_filterMap, List.mem_range, Option.ite_none_left_eq_some,
    Option.some.injEq]
  constructor
  · rintro ⟨j, hj, i, hi, hne, rfl⟩
    exact ⟨i, j, hi, hj, hne, rfl⟩
  · rintro ⟨i, j, hi, hj, hne, rfl⟩
    exact ⟨j, hj, i, hi, hne, rfl⟩

/-- Settles O27: no two pixels of a sprite land in one cell, so each opaque one that lands is the last to write there. -/
theorem spriteDrawsOpaquePixels : Obligations.SpriteDrawsOpaquePixels := by
  intro s tr p z data
  refine ⟨encode_sprite tr p z data, fun h => ?_, fun h => exists_faultEntered (exec_sprite_of_length_ne s tr p h) rfl⟩
  refine ⟨_, exec_sprite_of_length_eq s tr p h, fun i j a hi hj hne hl => ?_, fun a ha => ?_, rfl, rfl⟩
  · refine s.drawAll_cell_of_some _ a _ ⟨_, (mem_spritePixels ..).mpr ⟨i, j, hi, hj, hne, rfl⟩, hl⟩ fun q hq hlq => ?_
    obtain ⟨i', j', -, -, -, rfl⟩ := (mem_spritePixels ..).mp hq
    obtain ⟨hx, hy⟩ := State.landing_inj hl hlq
    dsimp only at hx hy
    obtain rfl : i = i' := by omega
    obtain rfl : j = j' := by omega
    rfl
  · refine s.drawAll_cell_of_none _ a fun q hq => ?_
    obtain ⟨i, j, hi, hj, hne, rfl⟩ := (mem_spritePixels ..).mp hq
    exact ha i j hi hj hne

end Sys2Proof.Machine
end

section
/-! ## The input queries and the events (R110 to R120, R187) -/

namespace Sys2Proof

/-- Behind the bytes of a packed payload stands padding, and all of it is zero (R63). -/
theorem eq_zero_of_mem_drop_flatMap_packBytes (bs : List Byte) :
    ∀ b ∈ ((packBytes bs).flatMap wordBytes).drop bs.length, b = 0 := by
  fun_induction packBytes bs with
  | case5 a b c d rest ih =>
    rw [List.flatMap_cons, wordBytes_mkDataWord]
    exact ih
  | _ => simp

end Sys2Proof

namespace Sys2Proof.Machine

/-! ### What each query responds (R110 to R113) -/

section

variable (s : State)

theorem exec_btn : exec (.btn (.ok ())) s = .next (s.respond [s.down.setWidth 32]) := rfl

theorem exec_btnp : exec (.btnp (.ok ())) s = .next (s.respond [s.pressed.setWidth 32]) := rfl

theorem exec_mouse :
    exec (.mouse (.ok ())) s =
      .next (s.respond [toWord (s.mx.toInt - s.dx.toInt), toWord (s.my.toInt - s.dy.toInt)]) := rfl

theorem exec_textget :
    exec (.textget (.ok ())) s = .next (s.respond (textLength s.text.length :: packBytes s.text)) := rfl

end

/-- A mask of ten buttons is the same number as a result word. -/
theorem buttons_setWidth_toNat (m : BitVec 10) : (m.setWidth 32).toNat = m.toNat :=
  BitVec.toNat_setWidth_of_le (by decide)

/-- The difference of two signed halves fits a result word (R112). -/
theorem toWord_sub_toInt (a b : BitVec 16) : (toWord (a.toInt - b.toInt)).toInt = a.toInt - b.toInt := by
  have ha := a.toInt_lt
  have ha' := a.le_toInt
  have hb := b.toInt_lt
  have hb' := b.le_toInt
  rw [toWord, BitVec.toInt_ofInt, Int.bmod_eq_of_le (by omega) (by omega)]

theorem textLength_toNat {n : Nat} (h : n < 2 ^ 32) : (textLength n).toNat = n := by
  rw [textLength, if_pos h, BitVec.toNat_ofNat, Nat.mod_eq_of_lt h]

/-- Settles O31: the masks, the position and the packed text fit their result words, and a query only responds. -/
theorem inputQueriesRespond : Obligations.InputQueriesRespond := fun s =>
  ⟨rfl, rfl, rfl, rfl,
    ⟨_, _, exec_btn s, s.onlyAnswered _, buttons_setWidth_toNat s.down⟩,
    ⟨_, _, exec_btnp s, s.onlyAnswered _, buttons_setWidth_toNat s.pressed⟩,
    ⟨_, _, _, exec_mouse s, s.onlyAnswered _, toWord_sub_toInt s.mx s.dx, toWord_sub_toInt s.my s.dy⟩,
    ⟨_, _, _, exec_textget s, s.onlyAnswered _, textLength_toNat, packBytes_length s.text,
      take_flatMap_packBytes s.text, eq_zero_of_mem_drop_flatMap_packBytes s.text⟩⟩

/-! ### The buttons' bits (R19, R114, R115) -/

theorem buttonIndex_lt (n : Button) : buttonIndex n < 10 := by
  cases n <;> decide

@[simp] theorem getLsbD_buttonBit (n : Button) (k : Nat) : (buttonBit n).getLsbD k = decide (k = buttonIndex n) := by
  rw [buttonBit, BitVec.getLsbD_twoPow, decide_eq_true (buttonIndex_lt n), Bool.true_and]
  exact decide_eq_decide.mpr eq_comm

/-- The test of R114: a mask and the button's bit have nothing in common when the mask's own bit is clear. -/
theorem and_buttonBit_eq_zero_iff (m : BitVec 10) (n : Button) :
    m &&& buttonBit n = 0 ↔ m.getLsbD (buttonIndex n) = false := by
  have hbit : buttonBit n ≠ 0 := by cases n <;> decide
  rw [buttonBit] at hbit ⊢
  rw [BitVec.and_twoPow]
  split_ifs with h
  · exact iff_of_false hbit (by simp [h])
  · exact iff_of_true rfl (Bool.eq_false_iff.mpr h)

section

variable (s : State) (n : Button)

theorem State.pressButton_down : (s.pressButton n).down = s.down ||| buttonBit n := by
  unfold State.pressButton
  split <;> rfl

theorem State.getLsbD_pressButton_down (k : Nat) :
    (s.pressButton n).down.getLsbD k = (s.down.getLsbD k || decide (k = buttonIndex n)) := by
  rw [State.pressButton_down, BitVec.getLsbD_or, getLsbD_buttonBit]

/-- Only a transition from released to held is latched (R114). -/
theorem State.getLsbD_pressButton_pressed (k : Nat) :
    (s.pressButton n).pressed.getLsbD k =
      (s.pressed.getLsbD k || decide (k = buttonIndex n ∧ s.down.getLsbD (buttonIndex n) = false)) := by
  unfold State.pressButton
  split_ifs with h <;> rw [and_buttonBit_eq_zero_iff] at h <;> simp [h]

/-- A press writes the two masks only (R114). -/
theorem State.pressButton_frame : { s.pressButton n with down := s.down, pressed := s.pressed } = s := by
  unfold State.pressButton
  split <;> rfl

theorem State.getLsbD_releaseButton_down (k : Nat) :
    (s.releaseButton n).down.getLsbD k = (s.down.getLsbD k && decide (k ≠ buttonIndex n)) := by
  rw [State.releaseButton, State.setDown_down, BitVec.getLsbD_and, BitVec.getLsbD_not, getLsbD_buttonBit, decide_not]
  by_cases hk : k < 10
  · rw [decide_eq_true hk, Bool.true_and]
  · rw [BitVec.getLsbD_of_ge s.down k (not_lt.mp hk), Bool.false_and, Bool.false_and]

end

/-! ### Events of a mapped and of an unmapped source (R114, R115) -/

section

variable {s : State} {src : BitVec 24}

theorem applyEvent_btnDown_of_mapped {n : Button} (h : buttonMap s.params src = some n) :
    applyEvent s (.btnDown src) = s.pressButton n := by
  rw [applyEvent, h]

theorem applyEvent_btnDown_of_unmapped (h : buttonMap s.params src = none) : applyEvent s (.btnDown src) = s := by
  rw [applyEvent, h]

theorem applyEvent_btnUp_of_mapped {n : Button} (h : buttonMap s.params src = some n) :
    applyEvent s (.btnUp src) = s.releaseButton n := by
  rw [applyEvent, h]

theorem applyEvent_btnUp_of_unmapped (h : buttonMap s.params src = none) : applyEvent s (.btnUp src) = s := by
  rw [applyEvent, h]

end

/-- Settles O33: a press sets the button's bit of `DOWN`, and of `PRESSED` when the test of R114 finds it released. -/
theorem buttonDownLatchesTheTransition : Obligations.ButtonDownLatchesTheTransition := by
  refine ⟨⟨rfl, rfl, rfl, rfl, rfl, rfl, rfl, rfl, rfl, rfl⟩, fun s src => ⟨applyEvent_btnDown_of_unmapped, ?_⟩⟩
  intro n hn
  rw [applyEvent_btnDown_of_mapped hn]
  exact ⟨s.getLsbD_pressButton_down n, s.getLsbD_pressButton_pressed n, s.pressButton_frame n⟩

/-! ### The other events (R116 to R118, R120) -/

theorem State.appendText_of_lt {s : State} (b : Byte) (h : s.text.length < s.params.textCap) :
    s.appendText b = s.setText (s.text ++ [b]) :=
  if_pos h

/-- A full buffer drops the byte (R117). -/
theorem State.appendText_of_ge {s : State} (b : Byte) (h : s.params.textCap ≤ s.text.length) : s.appendText b = s :=
  if_neg h.not_gt

/-- Settles O34: each kind of event is one update of the fields its rule names. -/
theorem otherEventsAct : Obligations.OtherEventsAct := by
  intro s
  refine ⟨fun src => applyEvent_btnUp_of_unmapped, fun src n hn => ?_, fun mx my => rfl,
    fun b => State.appendText_of_lt b, fun b => State.appendText_of_ge b, rfl, fun k => rfl⟩
  rw [applyEvent_btnUp_of_mapped hn]
  exact ⟨s.getLsbD_releaseButton_down n, rfl⟩

/-! ### The rescan (R119) -/

/-- What was opened once is in the list, so opening it again changes nothing. -/
theorem unionIds_unionIds {ids : List Word} (new : List Word) (h : risingIds ids = true) :
    unionIds (unionIds ids new) new = unionIds ids new := by
  have hrising := risingIds_unionIds ids new h
  refine risingIds_ext _ _ (risingIds_unionIds _ new hrising) hrising fun v => ?_
  rw [mem_unionIds, mem_unionIds, or_assoc, or_self]

theorem State.rescan_rescan {s : State} (h : risingIds s.opened = true) : s.rescan.rescan = s.rescan :=
  congrArg s.setOpened (unionIds_unionIds s.devices h)

/-- Settles O35: both hotplug events are the rescan, the union of two sets kept as a rising list. -/
theorem rescanIsAnIdempotentUnion : Obligations.RescanIsAnIdempotentUnion := by
  intro s id h
  exact ⟨mem_unionIds s.opened s.devices, risingIds_unionIds s.opened s.devices h, State.rescan_rescan h, rfl, rfl⟩

/-! ### A press and its release in one DRAIN (R147, R187) -/

/-- Using up the block's turn changes the list of turns only. -/
theorem BlockActs.exists_eq_setTurns {s u : State} (h : BlockActs s u) : ∃ ts, u = s.setTurns ts := by
  rcases h with ⟨-, rfl⟩ | ⟨ts, -, rfl⟩
  · exact ⟨u.turns, rfl⟩
  · exact ⟨ts, rfl⟩

theorem step_of_blockActs_drain {s u : State} (hb : BlockActs s u) (hp : s.phase = .drain) :
    step s = .next (drainStep u) := by
  rw [step_eq, nextAction_of_blockActs hb, blockTurn, hb.phase_eq, hp]

/-- Two pending events are applied in the order they came, and then the phase moves (R147). -/
theorem drainStep_of_evq_pair {s : State} {e f : EventRec} (h : s.evq = [e, f]) :
    drainStep s = (applyEvent (applyEvent (s.setEvq []) e.decode) f.decode).setPhase .time := by
  rw [drainStep, h]
  rfl

theorem drainStep_of_press_release {s : State} {e f : EventRec} {src : BitVec 24} {n : Button} (hq : s.evq = [e, f])
    (he : e.decode = .btnDown src) (hf : f.decode = .btnUp src) (hn : buttonMap s.params src = some n) :
    drainStep s = (((s.setEvq []).pressButton n).releaseButton n).setPhase .time := by
  have hn' : buttonMap ((s.setEvq []).pressButton n).params src = some n := by rwa [State.pressButton_params]
  rw [drainStep_of_evq_pair hq, he, hf, applyEvent_btnDown_of_mapped (s := s.setEvq []) hn,
    applyEvent_btnUp_of_mapped hn']

/-- Settles O37: the press latches the transition, and the release after it clears `DOWN` alone. -/
theorem pressAndReleaseInOneDrain : Obligations.PressAndReleaseInOneDrain := by
  rintro s e f src n ⟨u, hb⟩ hp hq he hf hn hup
  have hstep := step_of_blockActs_drain hb hp
  obtain ⟨ts, rfl⟩ := hb.exists_eq_setTurns
  rw [drainStep_of_press_release (s := s.setTurns ts) hq he hf hn] at hstep
  refine ⟨_, hstep, ?_, ?_, ?_⟩
  · simp [State.getLsbD_pressButton_pressed, hup]
  · simp [State.getLsbD_releaseButton_down]
  · simp

end Sys2Proof.Machine
end

section
/-! ## Rounding to binary64 (R126, R128, R148) -/

namespace Sys2Proof.Machine

/-! ### Division rounded to the nearest integer, ties to even -/

section

variable {a b k : Nat}

/-- The quotient goes down when the remainder is at most half the divisor, and up when it is at least half; at exactly
half the even one of the two is chosen. -/
theorem roundDivEven_cases (a b : Nat) :
    (roundDivEven a b = a / b ∧ 2 * (a % b) ≤ b ∧ (2 * (a % b) = b → a / b % 2 = 0))
    ∨ (roundDivEven a b = a / b + 1 ∧ b ≤ 2 * (a % b) ∧ (2 * (a % b) = b → (a / b + 1) % 2 = 0)) := by
  simp only [roundDivEven]
  split_ifs <;> omega

/-- The quotient is off by at most half a unit, and is even where it is off by exactly half. -/
theorem roundDivEven_nearest (a : Nat) (hb : 0 < b) :
    2 * ((a : Int) - (roundDivEven a b : Int) * (b : Int)).natAbs ≤ b
    ∧ (2 * ((a : Int) - (roundDivEven a b : Int) * (b : Int)).natAbs = b → roundDivEven a b % 2 = 0) := by
  have hr := Nat.mod_lt a hb
  have ha : ((a / b : Nat) : Int) * b + (a % b : Nat) = a := mod_cast Nat.div_add_mod' a b
  rcases roundDivEven_cases a b with ⟨hq, hle, heven⟩ | ⟨hq, hle, heven⟩ <;> rw [hq]
  · omega
  · rw [Nat.cast_succ, add_one_mul]
    omega

theorem le_roundDivEven (hb : 0 < b) (h : k * b ≤ a) : k ≤ roundDivEven a b := by
  have hk : k ≤ a / b := (Nat.le_div_iff_mul_le hb).mpr h
  rcases roundDivEven_cases a b with ⟨hq, -⟩ | ⟨hq, -⟩ <;> omega

theorem roundDivEven_le (hb : 0 < b) (h : a ≤ k * b) : roundDivEven a b ≤ k := by
  by_contra! hlt
  have hmul : (k + 1) * b ≤ roundDivEven a b * b := Nat.mul_le_mul_right b hlt
  obtain ⟨hnear, -⟩ := roundDivEven_nearest a hb
  rw [add_one_mul] at hmul
  zify at hmul h
  omega

/-- A quotient that is an integer is not rounded. -/
theorem roundDivEven_mul (k : Nat) (hb : 0 < b) : roundDivEven (k * b) b = k :=
  le_antisymm (roundDivEven_le hb le_rfl) (le_roundDivEven hb le_rfl)

end

/-! ### The exponent -/

section

variable {n d m : Nat} {e : Int}

/-- A power of two with its exponent on the one side or, negated, on the other. -/
theorem two_zpow_mul_pow_neg (j : Int) : (2 : ℚ) ^ j * 2 ^ (-j).toNat = 2 ^ j.toNat := by
  rcases le_total 0 j with hj | hj
  · lift j to ℕ using hj
    simp
  · obtain ⟨i, rfl⟩ : ∃ i : ℕ, j = -i := ⟨(-j).toNat, by omega⟩
    simp

theorem mul_two_pow_le_iff (x y : Nat) (j : Int) :
    x * 2 ^ j.toNat ≤ y * 2 ^ (-j).toNat ↔ (x : ℚ) * 2 ^ j ≤ y := by
  rw [← mul_le_mul_iff_left₀ (a := (2 : ℚ) ^ (-j).toNat) (by positivity), mul_assoc, two_zpow_mul_pow_neg]
  exact_mod_cast Iff.rfl

/-- A power of two is at most the quotient exactly when its exponent is at most the quotient's logarithm. -/
theorem le_log_iff (hn : 0 < n) (hd : 0 < d) (j : Int) :
    j ≤ Int.log 2 ((n : ℚ) / d) ↔ (d : ℚ) * 2 ^ j ≤ n := by
  have hd' : (0 : ℚ) < d := mod_cast hd
  rw [← Int.zpow_le_iff_le_log Nat.one_lt_two (by positivity), le_div_iff₀ hd', mul_comm, Nat.cast_ofNat]

/-- The exponent is the logarithm of the quotient, rounded down: the two operands' own logarithms leave only the choice
the comparison makes. -/
theorem floorLog2Ratio_eq_log (hn : 0 < n) (hd : 0 < d) : floorLog2Ratio n d = Int.log 2 ((n : ℚ) / d) := by
  have hnlo : (2 : ℚ) ^ n.log2 ≤ n := mod_cast Nat.log2_self_le hn.ne'
  have hnhi : (n : ℚ) < 2 ^ (n.log2 + 1) := mod_cast Nat.lt_log2_self
  have hdlo : (2 : ℚ) ^ d.log2 ≤ d := mod_cast Nat.log2_self_le hd.ne'
  have hdhi : (d : ℚ) < 2 ^ (d.log2 + 1) := mod_cast Nat.lt_log2_self
  have hlo : (n.log2 : Int) - d.log2 - 1 ≤ Int.log 2 ((n : ℚ) / d) := by
    rw [le_log_iff hn hd]
    calc (d : ℚ) * 2 ^ ((n.log2 : Int) - d.log2 - 1)
        ≤ 2 ^ (d.log2 + 1) * 2 ^ ((n.log2 : Int) - d.log2 - 1) := by gcongr
      _ = 2 ^ n.log2 := by
        rw [← zpow_natCast, ← zpow_natCast, ← zpow_add₀ two_ne_zero]
        congr 1
        omega
      _ ≤ n := hnlo
  have hhi : ¬ (n.log2 : Int) - d.log2 + 1 ≤ Int.log 2 ((n : ℚ) / d) := by
    rw [le_log_iff hn hd, not_le]
    calc (n : ℚ) < 2 ^ (n.log2 + 1) := hnhi
      _ = 2 ^ d.log2 * 2 ^ ((n.log2 : Int) - d.log2 + 1) := by
        rw [← zpow_natCast, ← zpow_natCast, ← zpow_add₀ two_ne_zero]
        congr 1
        omega
      _ ≤ d * 2 ^ ((n.log2 : Int) - d.log2 + 1) := by gcongr
  simp only [floorLog2Ratio, mul_two_pow_le_iff, ← le_log_iff hn hd]
  split_ifs <;> omega

/-- The exponent is at least `j + c` exactly when the quotient is at least `2 ^ (j + c)`; `c` is the part of the power
that stands as a factor. -/
theorem le_floorLog2Ratio_add_iff (hn : 0 < n) (hd : 0 < d) (j : Int) (c : Nat) :
    j + c ≤ floorLog2Ratio n d ↔ 2 ^ c * d * 2 ^ j.toNat ≤ n * 2 ^ (-j).toNat := by
  rw [floorLog2Ratio_eq_log hn hd, le_log_iff hn hd, mul_two_pow_le_iff, zpow_add₀ two_ne_zero, zpow_natCast]
  push_cast
  rw [mul_comm ((2 : ℚ) ^ j), ← mul_assoc, mul_comm (d : ℚ)]

theorem le_floorLog2Ratio_iff (hn : 0 < n) (hd : 0 < d) (j : Int) :
    j ≤ floorLog2Ratio n d ↔ d * 2 ^ j.toNat ≤ n * 2 ^ (-j).toNat := by
  simpa using le_floorLog2Ratio_add_iff hn hd j 0

/-! ### The rounded value `m * 2 ^ (e - 52)` -/

/-- The exponent and the significand are what the definition says. -/
theorem nearest64_eq (h : nearest64 n d = (m, e)) :
    e = max (floorLog2Ratio n d) (-1022) ∧ roundDivEven (n * 2 ^ (52 - e).toNat) (d * 2 ^ (e - 52).toNat) = m := by
  cases h
  exact ⟨rfl, rfl⟩

theorem nearest64_exp_ge (h : nearest64 n d = (m, e)) : -1022 ≤ e := by
  rw [(nearest64_eq h).1]
  exact le_max_right _ _

/-- The quotient is below the next power of two. -/
theorem not_succ_exp_le_floorLog2Ratio (h : nearest64 n d = (m, e)) : ¬ e + 1 ≤ floorLog2Ratio n d := by
  rw [(nearest64_eq h).1, not_le, Int.lt_add_one_iff]
  exact le_max_left _ _

theorem floorRN_eq (hn : 0 < n) (h : nearest64 n d = (m, e)) :
    floorRN n d = m * 2 ^ (e - 52).toNat / 2 ^ (52 - e).toNat := by
  rw [floorRN, if_neg hn.ne', h]

theorem binary64_eq (hn : 0 < n) (h : nearest64 n d = (m, e)) :
    binary64 n d = BitVec.ofNat 64 ((e + 1022).toNat * 2 ^ 52 + m) := by
  rw [binary64, if_neg hn.ne', h]

/-- Below `2 ^ k` the exponent is below `k`. -/
theorem nearest64_exp_lt (hn : 0 < n) (hd : 0 < d) (h : nearest64 n d = (m, e)) {k : Nat} (hk : n < d * 2 ^ k) :
    e < k := by
  have hfl : ¬ (k : Int) ≤ floorLog2Ratio n d := by
    rw [le_floorLog2Ratio_iff hn hd]
    simpa using hk
  obtain ⟨rfl, -⟩ := nearest64_eq h
  omega

theorem neg_1022_le_floorLog2Ratio_iff (hn : 0 < n) (hd : 0 < d) : -1022 ≤ floorLog2Ratio n d ↔ d ≤ n * 2 ^ 1022 := by
  rw [le_floorLog2Ratio_iff hn hd, show (-1022 : Int).toNat = 0 from rfl,
    show (-(-1022) : Int).toNat = 1022 from rfl, pow_zero, mul_one]

/-- The exponent is the quotient's own, or the least one where the quotient is below every normal number. -/
theorem nearest64_exp_cases (hn : 0 < n) (hd : 0 < d) (h : nearest64 n d = (m, e)) :
    (d ≤ n * 2 ^ 1022 ∧ e = floorLog2Ratio n d) ∨ (n * 2 ^ 1022 < d ∧ e = -1022) := by
  rw [← not_le, ← neg_1022_le_floorLog2Ratio_iff hn hd]
  obtain ⟨rfl, -⟩ := nearest64_eq h
  omega

theorem nearest64_exp_of_normal (hn : 0 < n) (hd : 0 < d) (h : nearest64 n d = (m, e)) (hnormal : d ≤ n * 2 ^ 1022) :
    e = floorLog2Ratio n d := by
  obtain ⟨-, he⟩ := (nearest64_exp_cases hn hd h).resolve_right fun ⟨hsub, _⟩ => hsub.not_ge hnormal
  exact he

theorem significand_le (hn : 0 < n) (hd : 0 < d) (h : nearest64 n d = (m, e)) : m ≤ 2 ^ 53 := by
  have hfl : ¬ e - 52 + (53 : Nat) ≤ floorLog2Ratio n d := by
    rw [show e - 52 + (53 : Nat) = e + 1 by omega]
    exact not_succ_exp_le_floorLog2Ratio h
  rw [le_floorLog2Ratio_add_iff hn hd, neg_sub, mul_assoc, not_le] at hfl
  obtain ⟨-, rfl⟩ := nearest64_eq h
  exact roundDivEven_le (by positivity) hfl.le

theorem le_significand (hn : 0 < n) (hd : 0 < d) (h : nearest64 n d = (m, e)) (he : e = floorLog2Ratio n d) :
    2 ^ 52 ≤ m := by
  have hfl : e - 52 + (52 : Nat) ≤ floorLog2Ratio n d := by omega
  rw [le_floorLog2Ratio_add_iff hn hd, neg_sub, mul_assoc] at hfl
  obtain ⟨-, rfl⟩ := nearest64_eq h
  exact le_roundDivEven (by positivity) hfl

/-- The bit pattern is an exponent field and a fraction. A significand below `2 ^ 52` is a subnormal's, and one that
rounding carried up to `2 ^ 53` is the next exponent's with no fraction. -/
theorem binary64_fields (hn : 0 < n) (hd : 0 < d) (h : nearest64 n d = (m, e)) (hlt : n < d * 2 ^ 1023) :
    ∃ E F : Nat, (binary64 n d).toNat = E * 2 ^ 52 + F ∧ E < 2047 ∧ F < 2 ^ 52
      ∧ m * 2 ^ (e + 1022).toNat = if E = 0 then F else (2 ^ 52 + F) * 2 ^ (E - 1) := by
  have hm := significand_le hn hd h
  have he := nearest64_exp_lt hn hd h hlt
  rw [binary64_eq hn h, BitVec.toNat_ofNat, Nat.mod_eq_of_lt (by omega)]
  rcases lt_or_ge m (2 ^ 52) with hsmall | hnormal
  · have he : e = -1022 := by
      rcases nearest64_exp_cases hn hd h with ⟨-, he⟩ | ⟨-, he⟩
      · exact absurd (le_significand hn hd h he) hsmall.not_ge
      · exact he
    subst he
    exact ⟨0, m, rfl, by decide, hsmall, mul_one m⟩
  rcases hm.lt_or_eq with hfit | rfl
  · refine ⟨(e + 1022).toNat + 1, m - 2 ^ 52, by omega, by omega, by omega, ?_⟩
    rw [if_neg (Nat.succ_ne_zero _), Nat.add_sub_cancel' hnormal, Nat.add_sub_cancel]
  · refine ⟨(e + 1022).toNat + 2, 0, by omega, by omega, by decide, ?_⟩
    rw [if_neg (Nat.succ_ne_zero _), Nat.add_succ_sub_one, pow_succ' 2 (_ + 1), add_zero]
    ring

end

/-- Settles O40: the significand is the nearest even quotient of the two scaled integers, and the exponent the quotient's
logarithm, held at -1022 from below. -/
theorem roundingIsToNearestEven : Obligations.RoundingIsToNearestEven := by
  refine ⟨fun d => ⟨rfl, rfl⟩, ?_⟩
  rintro n d m _ _ e hn hd h rfl rfl
  obtain ⟨hnear, htie⟩ := roundDivEven_nearest (n * 2 ^ (52 - e).toNat) (b := d * 2 ^ (e - 52).toNat) (by positivity)
  rw [(nearest64_eq h).2] at hnear htie
  have hupper := not_succ_exp_le_floorLog2Ratio h
  rw [le_floorLog2Ratio_iff hn hd, not_le] at hupper
  refine ⟨⟨nearest64_exp_ge h, significand_le hn hd h⟩, hnear, htie, hupper, fun hnormal => ?_, fun hsub => ?_, ?_,
    binary64_fields hn hd h⟩
  · have he := nearest64_exp_of_normal hn hd h hnormal
    exact ⟨le_significand hn hd h he, (le_floorLog2Ratio_iff hn hd e).mp he.le⟩
  · obtain ⟨-, he⟩ := (nearest64_exp_cases hn hd h).resolve_left fun ⟨hnormal, _⟩ => hsub.not_ge hnormal
    exact he
  · rw [floorRN_eq hn h]
    exact ⟨Nat.div_mul_le_self _ _, (Nat.div_lt_iff_lt_mul (by positivity)).mp (Nat.lt_succ_self _)⟩

end Sys2Proof.Machine
end

section
/-! ## The generator's commands (R125 to R131) -/

namespace Sys2Proof.Machine

/-! ### The advance (R125) -/

section

variable {w k : Nat} {x : BitVec w}

/-- Bit by bit upwards, a word that is its own left shift has no bit set. -/
theorem eq_zero_of_eq_shiftLeft (hk : 0 < k) (h : x = x <<< k) : x = 0#w := by
  refine BitVec.eq_of_getLsbD_eq fun i hi => ?_
  rw [BitVec.getLsbD_zero]
  induction i using Nat.strong_induction_on with
  | _ i ih =>
    rw [h, BitVec.getLsbD_shiftLeft]
    by_cases hik : i < k
    · simp [hik]
    · simp [ih (i - k) (by omega) (by omega)]

/-- A word that is its own right shift is not above a fraction of itself. -/
theorem eq_zero_of_eq_ushiftRight (hk : 0 < k) (h : x = x >>> k) : x = 0#w := by
  by_contra hx
  have hlt : x.toNat / 2 ^ k < x.toNat :=
    Nat.div_lt_self (Nat.pos_of_ne_zero fun h0 => hx (BitVec.eq_of_toNat_eq h0)) (Nat.one_lt_two_pow hk.ne')
  rw [← Nat.shiftRight_eq_div_pow, ← BitVec.toNat_ushiftRight, ← h] at hlt
  exact lt_irrefl _ hlt

theorem xor_shiftLeft_ne_zero (hk : 0 < k) (hx : x ≠ 0) : x ^^^ (x <<< k) ≠ 0 :=
  fun h => hx (eq_zero_of_eq_shiftLeft hk (BitVec.xor_eq_zero_iff.mp h))

theorem xor_ushiftRight_ne_zero (hk : 0 < k) (hx : x ≠ 0) : x ^^^ (x >>> k) ≠ 0 :=
  fun h => hx (eq_zero_of_eq_ushiftRight hk (BitVec.xor_eq_zero_iff.mp h))

end

/-- None of the three steps makes a nonzero word zero. -/
theorem xorshift_ne_zero {x : Word} (hx : x ≠ 0) : xorshift x ≠ 0 :=
  xor_shiftLeft_ne_zero (by decide) (xor_ushiftRight_ne_zero (by decide) (xor_shiftLeft_ne_zero (by decide) hx))

theorem advanceWord_ne_zero {fix : Word} (hfix : fix ≠ 0) (x : Word) : advanceWord fix x ≠ 0 := by
  refine xorshift_ne_zero ?_
  split_ifs with hx
  · exact hfix
  · exact hx

/-- Settles O38: a zero word is replaced by RNG_FIX, and each step keeps a word from zero. -/
theorem advanceIsXorshiftAndNeverZero : Obligations.AdvanceIsXorshiftAndNeverZero := by
  rintro s _ _ _ _ rfl rfl rfl rfl hfix
  exact ⟨rfl, advanceWord_ne_zero hfix s.seed⟩

/-! ### Quotients by `2 ^ 32` (R126, R128) -/

section

variable {n width : Nat}

/-- A numerator below `2 ^ 53` is not rounded. -/
theorem nearest64_exact {m : Nat} {e : Int} (hn : 0 < n) (hlt : n < 2 ^ 53) (h : nearest64 n (2 ^ 32) = (m, e)) :
    m * 2 ^ 32 = n * 2 ^ (52 - e).toNat := by
  have he : e < (21 : Nat) := nearest64_exp_lt hn (by decide) h (by omega)
  have hscale : n * 2 ^ (52 - e).toNat = n * 2 ^ (20 - e).toNat * 2 ^ 32 := by
    rw [mul_assoc, ← pow_add]
    congr 2
    omega
  obtain ⟨-, rfl⟩ := nearest64_eq h
  rw [show (e - 52).toNat = 0 by omega, pow_zero, mul_one, hscale, roundDivEven_mul _ (by decide)]

theorem floorRN_exact (hlt : n < 2 ^ 53) : floorRN n (2 ^ 32) = n / 2 ^ 32 := by
  obtain rfl | hn := n.eq_zero_or_pos
  · rfl
  rcases h : nearest64 n (2 ^ 32) with ⟨m, e⟩
  have he : e < (21 : Nat) := nearest64_exp_lt hn (by decide) h (by omega)
  calc floorRN n (2 ^ 32)
      = m / 2 ^ (52 - e).toNat := by
        rw [floorRN_eq hn h, show (e - 52).toNat = 0 by omega, pow_zero, mul_one]
    _ = m * 2 ^ 32 / (2 ^ (52 - e).toNat * 2 ^ 32) := (Nat.mul_div_mul_right _ _ (by decide)).symm
    _ = n / 2 ^ 32 := by
        rw [nearest64_exact hn hlt h, mul_comm n, Nat.mul_div_mul_left _ _ (by positivity)]

/-- Settles O43: the product of a word and such a width is below `2 ^ 53`. -/
theorem narrowDrawsAreExact : Obligations.NarrowDrawsAreExact := by
  intro seed width hw
  refine floorRN_exact ?_
  calc seed.toNat * width ≤ seed.toNat * 2 ^ 21 := Nat.mul_le_mul_left _ hw
    _ < 2 ^ 53 := by have := seed.isLt; omega

/-- A word over `2 ^ 32` is a normal binary64 below 1, and exact. -/
theorem binary64_fields_exact (hn : 0 < n) (hlt : n < 2 ^ 32) :
    ∃ E F : Nat, (binary64 n (2 ^ 32)).toNat = E * 2 ^ 52 + F ∧ F < 2 ^ 52 ∧ 1 ≤ E ∧ E ≤ 1022
      ∧ (2 ^ 52 + F) * 2 ^ E = n * 2 ^ 1043 := by
  rcases h : nearest64 n (2 ^ 32) with ⟨m, e⟩
  obtain ⟨E, F, hbits, -, hF, hval⟩ :=
    binary64_fields hn (by decide) h (hlt.trans_le (Nat.le_mul_of_pos_right _ (by positivity)))
  have he : e < (21 : Nat) := nearest64_exp_lt hn (by decide) h (by omega)
  have hlow := nearest64_exp_ge h
  have hexact : m * 2 ^ (e + 1022).toNat = n * 2 ^ 1042 := by
    refine Nat.eq_of_mul_eq_mul_right (show 0 < 2 ^ 32 by decide) ?_
    rw [mul_right_comm, nearest64_exact hn (by omega) h, mul_assoc, mul_assoc, ← pow_add, ← pow_add]
    congr 2
    omega
  have hE : E ≠ 0 := by
    rintro rfl
    rw [if_pos rfl] at hval
    have hle : 2 ^ 1042 ≤ n * 2 ^ 1042 := Nat.le_mul_of_pos_left _ hn
    have hpow : 2 ^ 1042 < 2 ^ 52 := by rw [← hexact, hval] at hle; exact hle.trans_lt hF
    exact absurd ((Nat.pow_lt_pow_iff_right (by decide)).mp hpow) (by decide)
  have hquot : (2 ^ 52 + F) * 2 ^ E = n * 2 ^ 1043 := by
    rw [if_neg hE] at hval
    obtain ⟨E, rfl⟩ := Nat.exists_eq_succ_of_ne_zero hE
    calc (2 ^ 52 + F) * 2 ^ (E + 1) = (2 ^ 52 + F) * 2 ^ E * 2 := by rw [pow_succ _ E, mul_assoc]
      _ = n * 2 ^ 1042 * 2 := by rw [← hexact, hval, Nat.succ_sub_one]
      _ = n * 2 ^ 1043 := by rw [mul_assoc, ← pow_succ]
  refine ⟨E, F, hbits, hF, Nat.one_le_iff_ne_zero.mpr hE, ?_, hquot⟩
  have hpow : 2 ^ (52 + E) < 2 ^ (32 + 1043) :=
    calc 2 ^ (52 + E) = 2 ^ 52 * 2 ^ E := pow_add _ _ _
      _ ≤ (2 ^ 52 + F) * 2 ^ E := Nat.mul_le_mul_right _ (Nat.le_add_right _ _)
      _ = n * 2 ^ 1043 := hquot
      _ < 2 ^ 32 * 2 ^ 1043 := Nat.mul_lt_mul_of_pos_right hlt (by positivity)
      _ = 2 ^ (32 + 1043) := (pow_add _ _ _).symm
  have := (Nat.pow_lt_pow_iff_right (by decide)).mp hpow
  omega

/-- The rounded product of a width below `2 ^ 31` and a unit draw does not reach the width: the draw is short of 1 by
`2 ^ -32`, more than rounding adds. -/
theorem floorRN_lt (hw : 0 < width) (hw' : width < 2 ^ 31) (h : n ≤ (2 ^ 32 - 1) * width) :
    floorRN n (2 ^ 32) < width := by
  obtain rfl | hn := n.eq_zero_or_pos
  · exact hw
  rcases hr : nearest64 n (2 ^ 32) with ⟨m, e⟩
  have he : e < (31 : Nat) := nearest64_exp_lt hn (by decide) hr (by omega)
  have hm : 2 ^ 52 ≤ m := by
    have hnormal : 2 ^ 32 ≤ n * 2 ^ 1022 :=
      calc 2 ^ 32 ≤ 2 ^ 1022 := pow_le_pow_right₀ one_le_two (by decide)
        _ ≤ n * 2 ^ 1022 := Nat.le_mul_of_pos_left _ hn
    exact le_significand hn (by decide) hr (nearest64_exp_of_normal hn (by decide) hr hnormal)
  obtain ⟨hnear, -⟩ := roundDivEven_nearest (n * 2 ^ (52 - e).toNat) (b := 2 ^ 32 * 2 ^ (e - 52).toNat) (by positivity)
  have hscaled : n * 2 ^ (52 - e).toNat ≤ (2 ^ 32 - 1) * (width * 2 ^ (52 - e).toNat) := by
    rw [← mul_assoc]
    exact Nat.mul_le_mul_right _ h
  have he' : (e - 52).toNat = 0 := by omega
  rw [(nearest64_eq hr).2, he', pow_zero, mul_one] at hnear
  rw [floorRN_eq hn hr, he', pow_zero, mul_one, Nat.div_lt_iff_lt_mul (by positivity)]
  generalize n * 2 ^ (52 - e).toNat = a at hnear hscaled
  generalize width * 2 ^ (52 - e).toNat = b at hscaled ⊢
  omega

end

/-! ### The draws (R126 to R128) -/

section

variable (s : State)

theorem exec_randu :
    exec (.randu (.ok ())) s =
      .next (s.advance.respond (words64 (binary64 s.advance.seed.toNat (2 ^ 32)))) := rfl

theorem exec_randn_of_pos {n : Word} (h : 1 ≤ n.toInt) :
    exec (.randn (.ok n)) s = .next (s.drawFrom 1 n.toInt.toNat) :=
  if_neg h.not_gt

theorem exec_randn_of_empty {n : Word} (h : n.toInt < 1) :
    exec (.randn (.ok n)) s = .next (s.raiseFault .rangeEmpty (Instr.randn (.ok n)).header) :=
  if_pos h

theorem exec_randr_of_fits {lo hi : Word} (h : lo.toInt ≤ hi.toInt) (hw : hi.toInt - lo.toInt + 1 ≤ 2 ^ 31 - 1) :
    exec (.randr (.ok (lo, hi))) s = .next (s.drawFrom lo.toInt (hi.toInt - lo.toInt + 1).toNat) :=
  (if_neg h.not_gt).trans (if_neg hw.not_gt)

theorem exec_randr_of_empty {lo hi : Word} (h : hi.toInt < lo.toInt) :
    exec (.randr (.ok (lo, hi))) s = .next (s.raiseFault .rangeEmpty (Instr.randr (.ok (lo, hi))).header) :=
  if_pos h

theorem exec_randr_of_overflow {lo hi : Word} (h : lo.toInt ≤ hi.toInt) (hw : 2 ^ 31 - 1 < hi.toInt - lo.toInt + 1) :
    exec (.randr (.ok (lo, hi))) s = .next (s.raiseFault .rangeOverflow (Instr.randr (.ok (lo, hi))).header) :=
  (if_neg h.not_gt).trans (if_pos hw)

theorem exec_seedget : exec (.seedget (.ok ())) s = .next (s.respond [s.seed]) := rfl

theorem exec_seedset (v : Word) : exec (.seedset (.ok v)) s = .next ((s.setSeed v).respond []) := rfl

end

/-- The two result words of a 64-bit pattern are its fields: the exponent field and the upper 20 bits of the fraction in
the second word, the rest in the first (R126). -/
theorem words64_fields {v : BitVec 64} {E F : Nat} (h : v.toNat = E * 2 ^ 52 + F) (hF : F < 2 ^ 52) :
    (v.extractLsb' 32 32).toNat / 2 ^ 20 = E
    ∧ (v.extractLsb' 32 32).toNat % 2 ^ 20 * 2 ^ 32 + (v.extractLsb' 0 32).toNat = F := by
  have hv := v.isLt
  rw [BitVec.extractLsb'_toNat, BitVec.extractLsb'_toNat, Nat.shiftRight_zero, Nat.shiftRight_eq_div_pow, h]
  omega

/-- Settles O39: the seed after the advance is a nonzero word, so its quotient has exact fields. -/
theorem randuRespondsTheExactQuotient : Obligations.RanduRespondsTheExactQuotient := by
  intro s hfix
  have hpos : 0 < s.advance.seed.toNat :=
    Nat.pos_of_ne_zero fun h0 => advanceWord_ne_zero hfix s.seed (BitVec.eq_of_toNat_eq h0)
  obtain ⟨E, F, hbits, hF, hlow, hhigh, hexact⟩ := binary64_fields_exact hpos s.advance.seed.isLt
  obtain ⟨hE, hfrac⟩ := words64_fields hbits hF
  refine ⟨rfl, _, _, _, exec_randu s, rfl, rfl, ?_, ?_, ?_, fun _ => rfl, rfl⟩
  · rwa [hE]
  · rwa [hE]
  · rw [hE, hfrac]
    exact hexact

theorem toInt_toWord {v : Int} (h : -2 ^ 31 ≤ v) (h' : v < 2 ^ 31) : (toWord v).toInt = v := by
  rw [toWord, BitVec.toInt_ofInt, Int.bmod_eq_of_le (by omega) (by omega)]

theorem scaledDraw_lt (seed : Word) {width : Nat} (hw : 0 < width) (hw' : width < 2 ^ 31) :
    scaledDraw seed width < width :=
  floorRN_lt hw hw' (Nat.mul_le_mul_right _ (Nat.le_sub_one_of_lt seed.isLt))

/-- A draw responds one word, in the range asked for (R127, R128). -/
theorem State.drawFrom_answers (s : State) {lo : Int} {width : Nat} (hw : 0 < width) (hw' : width < 2 ^ 31)
    (hlo : -2 ^ 31 ≤ lo) (hhi : lo + width ≤ 2 ^ 31) :
    ∃ v, Answered s (s.drawFrom lo width) [v]
      ∧ v.toInt = floorRN (s.advance.seed.toNat * width) (2 ^ 32) + lo ∧ lo ≤ v.toInt ∧ v.toInt < lo + width := by
  have hlt := scaledDraw_lt s.advance.seed hw hw'
  refine ⟨_, rfl, ?_⟩
  rw [toInt_toWord (by omega) (by omega)]
  exact ⟨rfl, by omega, by omega⟩

/-- Settles O41: RANDN is a draw from 1 of the width `n`, which is a positive signed word. -/
theorem randnDrawsFromOneToN : Obligations.RandnDrawsFromOneToN := by
  intro s n
  refine ⟨rfl, fun h => ?_, fun h => exists_faultEntered (exec_randn_of_empty s h) rfl⟩
  have hn := n.toInt_lt
  obtain ⟨v, hans, hv, hlo, hhi⟩ :=
    s.drawFrom_answers (lo := 1) (width := n.toInt.toNat) (by omega) (by omega) (by decide) (by omega)
  exact ⟨_, v, exec_randn_of_pos s h, hans, rfl, hv, hlo, by omega, fun _ => rfl, rfl⟩

/-- Settles O42: RANDR is a draw from `lo` of the width of the range, once the range is neither empty nor too wide. -/
theorem randrDrawsFromLoToHi : Obligations.RandrDrawsFromLoToHi := by
  intro s lo hi
  refine ⟨rfl, fun h hw => ?_, fun h => exists_faultEntered (exec_randr_of_empty s h) rfl,
    fun h hw => exists_faultEntered (exec_randr_of_overflow s h hw) rfl⟩
  have hmin := lo.le_toInt
  have hmax := hi.toInt_lt
  obtain ⟨v, hans, hv, hlo, hhi⟩ := s.drawFrom_answers (lo := lo.toInt)
    (width := (hi.toInt - lo.toInt + 1).toNat) (by omega) (by omega) (by omega) (by omega)
  exact ⟨_, v, exec_randr_of_fits s h hw, hans, rfl, hv, hlo, by omega, fun _ => rfl, rfl⟩

/-- Settles O44: SEEDGET responds the field, and SEEDSET sets it. -/
theorem seedIsReadAndWrittenVerbatim : Obligations.SeedIsReadAndWrittenVerbatim := fun s v =>
  ⟨rfl, rfl, ⟨_, exec_seedget s, s.onlyAnswered _⟩, _, exec_seedset s v, rfl, rfl, fun _ => rfl, rfl⟩

end Sys2Proof.Machine
end

section
/-! ## What touches `SEED` (R131) -/

namespace Sys2Proof.Machine

/-- Whatever next state the answer is, it has the property `P`. -/
def Ensures (P : State → Prop) (r : Result) : Prop := ∀ t, r = .next t → P t

section Ensures

variable {P : State → Prop}

theorem Ensures.next {t : State} (h : P t) : Ensures P (.next t) := by
  rintro _ ⟨⟩
  exact h

theorem Ensures.ite {p : Prop} [Decidable p] {r r' : Result} (h : Ensures P r) (h' : Ensures P r') :
    Ensures P (if p then r else r') := by
  split_ifs
  · exact h
  · exact h'

theorem Ensures.withArgs {α : Type} {i : Instr} {a : Args α} {s : State} {k : α → Result}
    (hf : P (s.raiseFault .arity i.header)) (hk : ∀ v, Ensures P (k v)) : Ensures P (withArgs i a s k) := by
  cases a with
  | ok v => exact hk v
  | wrongCount nw => exact .next hf

end Ensures

variable {s : State}

/-- Of the commands, only the three draws and SEEDSET write the seed. -/
theorem exec_ensures_seed_eq {i : Instr} (h : i.op ∉ [Op.randu, .randn, .randr, .seedset]) (s : State) :
    Ensures (fun t => t.seed = s.seed) (exec i s) := by
  cases i
  case randu | randn | randr | seedset => simp [Instr.op] at h
  case glyphset => exact .withArgs rfl fun _ => .ite (.next rfl) (.ite (.next rfl) (.next rfl))
  case setres | setresa | run | endframe | circ | circf | glyphget | sprite | colorget | colorset =>
    exact .withArgs rfl fun _ => .ite (.next rfl) (.next rfl)
  all_goals exact .withArgs rfl fun _ => .next rfl

theorem applyEvent_seed (s : State) (e : Event) : (applyEvent s e).seed = s.seed := by
  obtain ⟨-, -, -, hseed, -⟩ := applyEvent_frame s e
  exact hseed

theorem drainStep_seed (s : State) : (drainStep s).seed = s.seed := by
  obtain ⟨u, hu, e⟩ := drainStep_induction (s := s) (P := fun u => u.seed = s.seed) rfl
    fun u e hu => (applyEvent_seed u e).trans hu
  rw [e]
  exact hu

/-- The block's turn, named first or left when no turn is named, can be used up (log 1). -/
theorem exists_blockActs {us : List Turn} (h : s.turns = .block :: us ∨ s.turns = []) : ∃ u, BlockActs s u := by
  rcases h with h | h
  · exact ⟨_, .inr ⟨us, h, rfl⟩⟩
  · exact ⟨s, .inl ⟨h, rfl⟩⟩

/-- A step of a block that admits commands and has one on its port is that command's meaning (R143). -/
theorem step_of_command {us : List Turn} {i : Instr} {rest : List Word} (hs : s.turns = .block :: us ∨ s.turns = [])
    (hp : s.phase = .setup ∨ s.phase = .callback) (hd : decode s.cmdPort = .command i rest) :
    ∃ ts, step s = exec i ((s.setTurns ts).setCmdPort rest) := by
  obtain ⟨u, hb⟩ := exists_blockActs hs
  have hstep := step_of_blockActs hb hp
  obtain ⟨ts, rfl⟩ := hb.exists_eq_setTurns
  rw [takeCommand_command (s.setTurns ts) i rest hd] at hstep
  exact ⟨ts, hstep⟩

/-- Settles O45: no other command writes the seed, and no move of an agent does but a command or reset. -/
theorem seedChangesOnlyByDrawsAndSeedset : Obligations.SeedChangesOnlyByDrawsAndSeedset := by
  refine ⟨fun i s t hi => exec_ensures_seed_eq hi s t, fun s t hreset hstep hport => ?_⟩
  obtain ⟨u, us, hu, hm⟩ := step_move hstep
  cases hm with
  | block hb =>
    cases hb with
    | ranCommand hp hd he =>
      obtain ⟨ts, hexec⟩ := step_of_command (hu.imp_right And.left) hp hd
      exact exec_ensures_seed_eq (hport hp _ _ hd) ((s.setTurns ts).setCmdPort _) t (hexec.symm.trans hstep)
    | drained => exact drainStep_seed _
    | _ => rfl
  | reset =>
    rcases hu with hu | ⟨-, hu⟩
    · exact absurd (congrArg List.head? hu) hreset
    · cases hu
  | _ => rfl

end Sys2Proof.Machine
end

section
/-! ## The palette and the presenter (R135 to R137, R151) -/

namespace Sys2Proof.Machine

/-! ### The meaning of each palette command on its operands -/

section

variable (s : State) {slot : Byte}

theorem exec_colorget_of_le (h : slot.toNat ≤ 15) :
    exec (.colorget slot (.ok ())) s =
      .next (s.respond [(s.color (slot.setWidth 4)).r.setWidth 32, (s.color (slot.setWidth 4)).g.setWidth 32,
        (s.color (slot.setWidth 4)).b.setWidth 32]) :=
  if_neg h.not_gt

theorem exec_colorget_of_gt (h : 15 < slot.toNat) :
    exec (.colorget slot (.ok ())) s = .next (s.raiseFault .slot (Instr.colorget slot (.ok ())).header) :=
  if_pos h

theorem exec_colorset_of_le (r g b : Word) (h : slot.toNat ≤ 15) :
    exec (.colorset slot (.ok (r, g, b))) s =
      .next ((s.setPal (s.pal.set (slot.setWidth 4).toNat ⟨u8 r, u8 g, u8 b⟩ (slot.setWidth 4).isLt)).respond []) :=
  if_neg h.not_gt

theorem exec_colorset_of_gt (r g b : Word) (h : 15 < slot.toNat) :
    exec (.colorset slot (.ok (r, g, b))) s =
      .next (s.raiseFault .slot (Instr.colorset slot (.ok (r, g, b))).header) :=
  if_pos h

end

/-! ### Entries, their slots and their components (R16, R69) -/

/-- The palette is read at the low four bits of a byte, which are always a slot of it (R16, R137). -/
theorem State.getElem?_pal (s : State) (v : Byte) : s.pal[v.toNat % 16]? = some (s.color (v.setWidth 4)) :=
  Vector.getElem?_eq_getElem (Nat.mod_lt _ (by decide))

/-- A slot up to 15 is its own low four bits. -/
theorem toNat_setWidth_four {slot : Byte} (h : slot.toNat ≤ 15) : (slot.setWidth 4).toNat = slot.toNat := by
  rw [BitVec.toNat_setWidth, Nat.mod_eq_of_lt (by omega)]

/-- A component is the same number as a result word (R135). -/
theorem component_setWidth_toNat (v : Byte) : (v.setWidth 32).toNat = v.toNat :=
  BitVec.toNat_setWidth_of_le (by decide)

/-- `u8` of a word is the signed word modulo 256, since 256 divides `2 ^ 32` (R5). -/
theorem u8_toNat_eq_toInt_emod (w : Word) : ((u8 w).toNat : Int) = w.toInt % 256 := by
  have hw := w.toInt_eq_toNat_cond
  rw [u8, BitVec.toNat_setWidth]
  split at hw <;> omega

/-- A component moved up by at most 16 bits stays within a pixel. -/
theorem component_shiftLeft_toNat (v : Byte) {k : Nat} (hk : k ≤ 16) :
    (v.setWidth 24 <<< k).toNat = v.toNat <<< k := by
  have hlt : v.toNat <<< k < 2 ^ 24 :=
    (Nat.shiftLeft_lt v.isLt).trans_le (Nat.pow_le_pow_right (by decide) (by omega))
  rw [BitVec.toNat_shiftLeft, BitVec.toNat_setWidth_of_le (by decide), Nat.mod_eq_of_lt hlt]

/-- Bits put above a number are added to it. -/
theorem or_shiftLeft_eq_add {n k : Nat} (m : Nat) (h : n < 2 ^ k) : n ||| m <<< k = m * 2 ^ k + n := by
  rw [Nat.or_comm, ← Nat.shiftLeft_add_eq_or_of_lt h, Nat.shiftLeft_eq]

/-- The three components stand in bytes of their own, so a pixel is their sum at these weights (R69). -/
theorem rgbPixel_toNat (p : Rgb) : (rgbPixel p).toNat = p.r.toNat * 65536 + p.g.toNat * 256 + p.b.toNat := by
  have hg := p.g.isLt
  have hb := p.b.isLt
  rw [rgbPixel, BitVec.toNat_or, BitVec.toNat_or, component_shiftLeft_toNat _ (by decide),
    component_shiftLeft_toNat _ (by decide), BitVec.toNat_setWidth_of_le (by decide), or_shiftLeft_eq_add _ hb,
    or_shiftLeft_eq_add _ (by omega)]
  omega

/-- Settles O28: a slot of the palette is its own low four bits, and a component fits its result word. -/
theorem colorgetRespondsTheEntry : Obligations.ColorgetRespondsTheEntry := by
  intro s slot
  refine ⟨rfl, fun h => ?_, fun h => exists_faultEntered (exec_colorget_of_gt s h) rfl⟩
  have hread := s.getElem?_pal slot
  rw [Nat.mod_eq_of_lt (Nat.lt_succ_of_le h)] at hread
  exact ⟨_, _, _, _, _, exec_colorget_of_le s h, s.onlyAnswered _, hread, component_setWidth_toNat _,
    component_setWidth_toNat _, component_setWidth_toNat _⟩

/-- Settles O29: a `set` of the palette changes its own entry only, and each component is kept modulo 256. -/
theorem colorsetStoresTruncatedComponents : Obligations.ColorsetStoresTruncatedComponents := by
  intro s slot r g b
  refine ⟨rfl, fun h => ?_, fun h => exists_faultEntered (exec_colorset_of_gt s r g b h) rfl⟩
  have hslot := toNat_setWidth_four h
  refine ⟨_, ⟨u8 r, u8 g, u8 b⟩, exec_colorset_of_le s r g b h, ?_, u8_toNat_eq_toInt_emod r,
    u8_toNat_eq_toInt_emod g, u8_toNat_eq_toInt_emod b, fun k hk => ?_, rfl, fun _ => rfl, rfl⟩
  · exact (Vector.getElem?_set (slot.setWidth 4).isLt).trans (if_pos hslot)
  · exact (Vector.getElem?_set (slot.setWidth 4).isLt).trans (if_neg fun e => hk (e.symm.trans hslot))

/-! ### The frame (R137, R151) -/

theorem State.length_framePixels (s : State) : s.framePixels.length = s.w.toNat * s.h.toNat := by
  rw [State.framePixels, List.length_map, List.length_range]

/-- The pixel at a row-major number is the entry the low four bits of that cell name (R137). -/
theorem State.getElem?_framePixels (s : State) {a : Nat} (ha : a < s.w.toNat * s.h.toNat) :
    s.framePixels[a]? = some (rgbPixel (s.color ((s.cell a).setWidth 4))) := by
  rw [State.framePixels, List.getElem?_map, List.getElem?_range ha, Option.map_some]

/-- In PRESENT a step of the block is the presenter's (R142). -/
theorem step_of_blockActs_present {s u : State} (hb : BlockActs s u) (hp : s.phase = .present) :
    step s = .next (presentStep u) := by
  rw [step_eq, nextAction_of_blockActs hb, blockTurn, hb.phase_eq, hp]

/-- Settles O30: the frame lists the pixel of every cell, and the presenter sets the phase only besides sending it. -/
theorem presentEmitsTheFrame : Obligations.PresentEmitsTheFrame := by
  intro s u hb hp
  have hstep := step_of_blockActs_present hb hp
  obtain ⟨ts, rfl⟩ := hb.exists_eq_setTurns
  refine ⟨_, s.framePixels, hstep, rfl, rfl, s.length_framePixels, fun a ha => ?_, fun _ => rfl, rfl⟩
  exact ⟨_, _, s.getElem?_framePixels ha, s.getElem?_pal _, rgbPixel_toNat _⟩

end Sys2Proof.Machine
end

section
/-! ## The sequencer (R142 to R157): whose turn a step takes -/

namespace Sys2Proof.Machine

variable {s u : State}

/-- A step of the block is the block's own turn, taken on the state with that turn used up (R8; log 1). -/
theorem step_eq_blockTurn (hb : BlockActs s u) : step s = (blockTurn u).result := by
  rw [step_eq_result, nextAction_of_blockActs hb]

/-- A step with a turn named first is that turn, taken on the state with it used up (R8; log 1). -/
theorem step_eq_takeTurn {v : Turn} {ts : List Turn} (h : s.turns = v :: ts) :
    step s = (takeTurn (s.setTurns ts) v).result := by
  rw [step_eq_result, nextAction_cons s v ts h]

/-- Whether the block acts next is read off the turns alone. -/
theorem BlockActs.of_turns_eq {r : State} (hb : BlockActs s u) (h : r.turns = s.turns) :
    BlockActs r (r.setTurns u.turns) := by
  rcases hb with ⟨hs, rfl⟩ | ⟨ts, hs, rfl⟩
  · exact .inl ⟨h.trans hs, h ▸ rfl⟩
  · exact .inr ⟨ts, h.trans hs, rfl⟩

/-- The block acts, or the turn named first is another agent's. -/
theorem blockActs_or_other_turn (s : State) :
    (∃ u, BlockActs s u) ∨ ∃ v ts, s.turns = v :: ts ∧ v ≠ .block := by
  cases hs : s.turns with
  | nil => exact .inl (exists_blockActs (us := []) (.inr hs))
  | cons v ts =>
    by_cases hv : v = .block
    · exact .inl (exists_blockActs (.inl (hv ▸ hs)))
    · exact .inr ⟨v, ts, rfl, hv⟩

/-! ### The other agents' turns (R60, R70, R152) -/

theorem presentDone_of_vsync (h : s.phase = .vsync) : presentDone s = s.setPhase .top :=
  if_pos h

theorem presentDone_of_ne_vsync (h : s.phase ≠ .vsync) : presentDone s = s :=
  if_neg h

theorem hostTurn_of_fits {ws : List Word} (h : atMostOnePacket (s.cmdPort ++ ws) = true) :
    hostTurn s ws = .next (s.setCmdPort (s.cmdPort ++ ws)) :=
  if_pos h

theorem hostTurn_of_not_fits {ws : List Word} (h : atMostOnePacket (s.cmdPort ++ ws) = false) :
    hostTurn s ws = .refused .secondPacket :=
  if_neg (Bool.eq_false_iff.mp h)

theorem clockTurn_of_le {c : BitVec 64} (h : s.now.toNat ≤ c.toNat) : clockTurn s c = .next (s.setNow c) :=
  if_neg h.not_gt

theorem clockTurn_of_lt {c : BitVec 64} (h : c.toNat < s.now.toNat) : clockTurn s c = .refused .clockDecreased :=
  if_pos h

theorem atMostOnePacket_cons_iff (h : Word) (ws : List Word) :
    atMostOnePacket (h :: ws) = true ↔ ws.length ≤ (nwField h).toNat :=
  decide_eq_true_iff

/-- Settles O54: each turn is taken off the list, and its agent sets the one field its rule names or is refused. -/
theorem otherAgentsTouchOnlyTheirInputs : Obligations.OtherAgentsTouchOnlyTheirInputs := by
  intro s ts
  refine ⟨fun e h => step_eq_takeTurn h, fun ws h hfits => ?_, fun ws h hfits => ?_, atMostOnePacket_cons_iff,
    fun ids h => step_eq_takeTurn h, fun c h hle => ?_, fun c h hlt => ?_⟩
  · exact (step_eq_takeTurn h).trans (hostTurn_of_fits (s := s.setTurns ts) hfits)
  · exact (step_eq_takeTurn h).trans (hostTurn_of_not_fits (s := s.setTurns ts) hfits)
  · exact (step_eq_takeTurn h).trans (clockTurn_of_le (s := s.setTurns ts) hle)
  · exact (step_eq_takeTurn h).trans (clockTurn_of_lt (s := s.setTurns ts) hlt)

end Sys2Proof.Machine
end

section
/-! ## DRAIN (R147) -/

namespace Sys2Proof.Machine

variable {s : State}

theorem applyEvent_evq (s : State) (e : Event) : (applyEvent s e).evq = s.evq := by
  obtain ⟨-, -, -, -, -, -, -, -, -, hevq, -⟩ := applyEvent_frame s e
  exact hevq

theorem applyEvent_turns (s : State) (e : Event) : (applyEvent s e).turns = s.turns := by
  obtain ⟨-, -, -, -, -, -, -, -, -, -, hturns⟩ := applyEvent_frame s e
  exact hturns

theorem State.setEvq_of_evq_eq {q : List EventRec} (h : s.evq = q) : s.setEvq q = s := by
  rw [← h]
  rfl

theorem State.pressButton_of_released {n : Button} (h : s.down &&& buttonBit n = 0) :
    s.pressButton n = (s.setPressed (s.pressed ||| buttonBit n)).setDown (s.down ||| buttonBit n) := by
  rw [State.pressButton, if_pos h]
  rfl

theorem State.pressButton_of_held {n : Button} (h : ¬ s.down &&& buttonBit n = 0) :
    s.pressButton n = s.setDown (s.down ||| buttonBit n) := by
  rw [State.pressButton, if_neg h]

theorem State.pressButton_setTurns (s : State) (ts : List Turn) (n : Button) :
    (s.setTurns ts).pressButton n = (s.pressButton n).setTurns ts := by
  by_cases h : s.down &&& buttonBit n = 0
  · rw [State.pressButton_of_released h, State.pressButton_of_released (s := s.setTurns ts) h]
    rfl
  · rw [State.pressButton_of_held h, State.pressButton_of_held (s := s.setTurns ts) h]
    rfl

theorem State.appendText_setTurns (s : State) (ts : List Turn) (b : Byte) :
    (s.setTurns ts).appendText b = (s.appendText b).setTurns ts := by
  rcases lt_or_ge s.text.length s.params.textCap with h | h
  · rw [State.appendText_of_lt b h, State.appendText_of_lt (s := s.setTurns ts) b h]
    rfl
  · rw [State.appendText_of_ge b h, State.appendText_of_ge (s := s.setTurns ts) b h]

/-- No event looks at the turns to come. -/
theorem applyEvent_setTurns (s : State) (ts : List Turn) (e : Event) :
    applyEvent (s.setTurns ts) e = (applyEvent s e).setTurns ts := by
  cases e with
  | btnDown src =>
    simp only [applyEvent, State.setTurns_params]
    split
    · exact s.pressButton_setTurns ts _
    · rfl
  | btnUp src =>
    simp only [applyEvent, State.setTurns_params]
    split <;> rfl
  | text b => exact s.appendText_setTurns ts b
  | mouseMove | close | devAdded | devRemoved | other => rfl

/-- With nothing pending, DRAIN only moves the phase. -/
theorem drainStep_of_evq_nil (h : s.evq = []) : drainStep s = s.setPhase .time := by
  rw [drainStep, h, State.setEvq_of_evq_eq h]
  rfl

/-- DRAIN applies the oldest event and goes on with the others. -/
theorem drainStep_of_evq_cons {e : EventRec} {q : List EventRec} (h : s.evq = e :: q) :
    drainStep s = drainStep ((applyEvent (s.setEvq []) e.decode).setEvq q) := by
  have hempty := State.setEvq_of_evq_eq (applyEvent_evq (s.setEvq []) e.decode)
  calc drainStep s
      = (q.foldl (fun t e => applyEvent t e.decode) (applyEvent (s.setEvq []) e.decode)).setPhase .time := by
        rw [drainStep, h, List.foldl_cons]
    _ = drainStep ((applyEvent (s.setEvq []) e.decode).setEvq q) := congrArg
        (fun u => (q.foldl (fun t e => applyEvent t e.decode) u).setPhase .time) hempty.symm

theorem drainStep_evq (s : State) : (drainStep s).evq = [] := by
  obtain ⟨u, hu, e⟩ := drainStep_induction (s := s) (P := fun u => u.evq = []) rfl
    fun u e hu => (applyEvent_evq u e).trans hu
  rw [e]
  exact hu

/-- Settles O36: the block's turn is used up by the step of `s` and of the state past its first event alike, and DRAIN
is the recursion on the queue. -/
theorem drainAppliesEventsInOrder : Obligations.DrainAppliesEventsInOrder := by
  intro s u hb hp
  have hstep := step_of_blockActs_drain hb hp
  refine ⟨fun hq => ?_, fun e q hq => ?_, _, hstep, rfl, drainStep_evq u⟩
  · obtain ⟨ts, rfl⟩ := hb.exists_eq_setTurns
    rw [hstep, drainStep_of_evq_nil (s := s.setTurns ts) hq]
    rfl
  · have hb' := hb.of_turns_eq (r := (applyEvent (s.setEvq []) e.decode).setEvq q) (applyEvent_turns _ _)
    have hstep' := step_of_blockActs_drain hb' ((applyEvent_phase _ _).trans hp)
    obtain ⟨ts, rfl⟩ := hb.exists_eq_setTurns
    calc step s
        = .next (drainStep ((applyEvent ((s.setEvq []).setTurns ts) e.decode).setEvq q)) := by
          rw [hstep, drainStep_of_evq_cons (s := s.setTurns ts) hq]
          rfl
      _ = .next (drainStep (((applyEvent (s.setEvq []) e.decode).setEvq q).setTurns ts)) := by
          rw [applyEvent_setTurns]
          rfl
      _ = step { applyEvent { s with evq := [] } e.decode with evq := q } := hstep'.symm

end Sys2Proof.Machine
end

section
/-! ## Waiting, holding and stopping (R143, R152, R155, R164, R184) -/

namespace Sys2Proof.Machine

variable {s t : State}

/-! ### VSYNC (R152) -/

/-- In VSYNC the block's only move is to wait. -/
theorem BlockMove.eq_of_vsync (hm : BlockMove s t) (hv : s.phase = .vsync) : t = s := by
  cases hm with
  | awaitedPacket | awaitedDisplay => rfl
  | refusedHeader hp | ranCommand hp => simp [hv] at hp
  | halted hp | beganFrame hp | clearedInput hp | drained hp | calledBack hp | skippedCallback hp | presented hp =>
    cases hp.symm.trans hv

/-- The turn a step takes is first on the list, or the block's. -/
theorem ne_of_head?_ne {v w : Turn} {ts : List Turn} (hs : s.turns = v :: ts ∨ s.turns = [] ∧ v = .block)
    (hw : w ≠ .block) (h : s.turns.head? ≠ some w) : v ≠ w := by
  rintro rfl
  rcases hs with hs | ⟨-, rfl⟩
  · exact h (congrArg List.head? hs)
  · exact hw rfl

/-- Of the agents, only DISPLAY and reset move a block that waits in VSYNC. -/
theorem TurnMove.phase_eq_of_vsync {v : Turn} (hm : TurnMove s v t) (hd : v ≠ .display) (hr : v ≠ .reset)
    (hv : s.phase = .vsync) : t.phase = .vsync := by
  cases hm with
  | block hb => exact hb.eq_of_vsync hv ▸ hv
  | displayHeard | displayIgnored => exact absurd rfl hd
  | reset => exact absurd rfl hr
  | host | platform | hotplug | clock => exact hv

/-- Settles O51: DISPLAY's turn tests the phase, and no move of another agent but reset leaves VSYNC. -/
theorem vsyncWaitsForTheDisplay : Obligations.VsyncWaitsForTheDisplay := by
  refine ⟨fun s ts hv hs => ?_, fun s hv => ⟨fun u hb => ?_, fun ts hs => ?_, fun t hstep hd hr => ?_⟩⟩
  · rw [step_eq_takeTurn hs]
    exact congrArg Host.Outcome.next (presentDone_of_ne_vsync (s := s.setTurns ts) hv)
  · rw [step_eq_blockTurn hb, blockTurn, hb.phase_eq, hv]
    rfl
  · rw [step_eq_takeTurn hs]
    exact congrArg Host.Outcome.next (presentDone_of_vsync (s := s.setTurns ts) hv)
  · obtain ⟨v, ts, hs, hm⟩ := step_move hstep
    exact hm.phase_eq_of_vsync (ne_of_head?_ne hs (by decide) hd) (ne_of_head?_ne hs (by decide) hr) hv

/-! ### What no step touches outside admission (R143, R184) -/

/-- What a response or a pixel write would change: the responses sent, and all that the cells are read from. -/
def State.answersAndCells (s : State) := (s.rspPort, s.fb, s.draws)

theorem sameCells_of_answersAndCells_eq (h : t.answersAndCells = s.answersAndCells) :
    t.rspPort = s.rspPort ∧ SameCells s t := by
  simp only [State.answersAndCells, Prod.mk.injEq] at h
  obtain ⟨hrsp, hfb, hdraws⟩ := h
  refine ⟨hrsp, fun a => ?_⟩
  rw [State.cell, State.cell, hfb, hdraws]

theorem applyEvent_cmdPort (s : State) (e : Event) : (applyEvent s e).cmdPort = s.cmdPort := by
  obtain ⟨-, -, -, -, -, -, hcmd, -⟩ := applyEvent_frame s e
  exact hcmd

theorem applyEvent_answersAndCells (s : State) (e : Event) :
    (applyEvent s e).answersAndCells = s.answersAndCells := by
  obtain ⟨-, -, hfb, -, -, -, -, hrsp, hdraws, -⟩ := applyEvent_frame s e
  rw [State.answersAndCells, hrsp, hfb, hdraws]
  rfl

theorem drainStep_holds (s : State) :
    (drainStep s).cmdPort = s.cmdPort ∧ (drainStep s).answersAndCells = s.answersAndCells := by
  obtain ⟨u, hu, e⟩ := drainStep_induction (s := s)
    (P := fun u => u.cmdPort = s.cmdPort ∧ u.answersAndCells = s.answersAndCells) ⟨rfl, rfl⟩
    fun u e ⟨hcmd, hrest⟩ => ⟨(applyEvent_cmdPort u e).trans hcmd, (applyEvent_answersAndCells u e).trans hrest⟩
  rw [e]
  exact hu

/-- Only a block that admits commands takes a word, answers or writes a cell. -/
theorem BlockMove.holds (hm : BlockMove s t) (hp : ¬ (s.phase = .setup ∨ s.phase = .callback)) :
    t.cmdPort = s.cmdPort ∧ t.answersAndCells = s.answersAndCells := by
  cases hm with
  | refusedHeader h | ranCommand h => exact absurd h hp
  | drained => exact drainStep_holds s
  | _ => exact ⟨rfl, rfl⟩

/-- Of the other agents, HOST alone adds words, and none but reset touches the responses or the cells. -/
theorem TurnMove.holds {v : Turn} (hm : TurnMove s v t) (hr : v ≠ .reset)
    (hp : ¬ (s.phase = .setup ∨ s.phase = .callback)) :
    (∃ ws, t.cmdPort = s.cmdPort ++ ws ∧ (ws = [] ∨ v = .host ws)) ∧ t.answersAndCells = s.answersAndCells := by
  cases hm with
  | block hb =>
    obtain ⟨hcmd, hrest⟩ := hb.holds hp
    exact ⟨⟨[], by rw [hcmd, List.append_nil], .inl rfl⟩, hrest⟩
  | host ws => exact ⟨⟨ws, rfl, .inr rfl⟩, rfl⟩
  | reset => exact absurd rfl hr
  | _ => exact ⟨⟨[], (List.append_nil _).symm, .inl rfl⟩, rfl⟩

/-- Settles O52: outside admission the block's moves leave the port, the responses and the cells, and HOST's turn, which
adds words, is first on the list. -/
theorem packetsAreHeldOutsideAdmission : Obligations.PacketsAreHeldOutsideAdmission := by
  intro s t hr hsetup hcallback hstep
  obtain ⟨v, ts, hs, hm⟩ := step_move hstep
  obtain ⟨⟨ws, hcmd, hws⟩, hrest⟩ :=
    hm.holds (ne_of_head?_ne hs (by decide) hr) (not_or.mpr ⟨hsetup, hcallback⟩)
  refine ⟨⟨ws, hcmd, hws.imp_right ?_⟩, sameCells_of_answersAndCells_eq (s := s.setTurns ts) hrest⟩
  rintro rfl
  rcases hs with hs | ⟨-, hv⟩
  · exact congrArg List.head? hs
  · cases hv

/-! ### Where the machine stops (R155, R157, R164) -/

theorem exec_ne_fault (i : Instr) (s : State) (f : Fault) : exec i s ≠ .fault f := by
  obtain ⟨t, ht, -⟩ := exec_completes i s
  simp [ht]

theorem takeCommand_ne_fault (s : State) (f : Fault) : (takeCommand s).result ≠ .fault f := by
  unfold takeCommand
  split
  · exact nofun
  · exact nofun
  · exact exec_ne_fault _ _ f

theorem timeStep_ne_fault (s : State) (f : Fault) : timeStep s ≠ .fault f := by
  unfold timeStep
  split_ifs <;> exact nofun

/-- The block's turn is stuck in HALTED and FAULTED and in no other phase. -/
theorem blockTurn_faults_iff (s : State) : (∃ f, (blockTurn s).result = .fault f) ↔ s.over := by
  unfold blockTurn State.over
  cases hp : s.phase
  case halted | faulted => simp [Action.result]
  case setup | callback => simp [takeCommand_ne_fault]
  case time => simp [Action.result, timeStep_ne_fault]
  case top | clearin | drain | present | vsync => simp [Action.result]

theorem takeTurn_ne_fault {v : Turn} (hv : v ≠ .block) (s : State) (f : Fault) :
    (takeTurn s v).result ≠ .fault f := by
  cases v with
  | block => exact absurd rfl hv
  | host ws => rcases hostTurn_cases s ws with ⟨-, h⟩ | ⟨-, h⟩ <;> simp [takeTurn, Action.result, h]
  | clock c =>
    simp only [takeTurn, Action.result, clockTurn]
    split_ifs <;> exact nofun
  | platform | hotplug | display | reset => exact nofun

/-- Settles O53: a step is the block's turn, stuck exactly where the run is over, or another agent's, which never is. -/
theorem runIsOverExactlyWhenTheBlockStops : Obligations.RunIsOverExactlyWhenTheBlockStops := by
  intro s
  rcases blockActs_or_other_turn s with ⟨u, hb⟩ | ⟨v, ts, hs, hv⟩
  · calc (∃ f, step s = .fault f)
        ↔ u.over := by rw [step_eq_blockTurn hb, blockTurn_faults_iff]
      _ ↔ s.over := by rw [State.over, hb.phase_eq, State.over]
      _ ↔ s.over ∧ ∃ u, BlockActs s u := (and_iff_left ⟨u, hb⟩).symm
  · constructor
    · rintro ⟨f, hf⟩
      exact absurd ((step_eq_takeTurn hs).symm.trans hf) (takeTurn_ne_fault hv _ f)
    · rintro ⟨-, u, ⟨hnil, -⟩ | ⟨ts', hblock, -⟩⟩
      · cases hnil.symm.trans hs
      · cases hblock.symm.trans hs
        exact absurd rfl hv

end Sys2Proof.Machine
end

section
/-! ## Admission (R51, R60, R143, R149) -/

namespace Sys2Proof

/-- Words are no whole packet exactly when none stands first or its header announces more than follow (R60). -/
theorem decode_eq_incomplete_iff (ws : List Word) :
    decode ws = .incomplete ↔ ∀ h us, ws = h :: us → us.length < (nwField h).toNat := by
  cases ws with
  | nil => simp [decode]
  | cons h us =>
    have hcons : decode (h :: us) = .incomplete ↔ us.length < (nwField h).toNat := by
      simp only [decode]
      split_ifs with hl
      · exact iff_of_true rfl hl
      · refine iff_of_false ?_ hl
        split <;> exact Decoded.noConfusion
    rw [hcons]
    refine ⟨?_, fun hall => hall h us rfl⟩
    rintro hl _ _ ⟨⟩
    exact hl

end Sys2Proof

namespace Sys2Proof.Machine

/-- Settles O5: the port is decoded as it stands, and using up the block's turn leaves it. -/
theorem stepRunsTheDecodedCommand : Obligations.StepRunsTheDecodedCommand := by
  refine ⟨fun s u hb hp => ?_, decode_eq_incomplete_iff⟩
  have hstep := step_of_blockActs hb hp
  rw [← hb.cmdPort_eq]
  refine ⟨fun i rest hd => ?_, fun hd => ?_⟩
  · rw [hstep, takeCommand_command u i rest hd]
    rfl
  · rw [hstep, takeCommand_incomplete u hd]
    rfl

end Sys2Proof.Machine
end

section
/-! ## The sequencer's commands (R144, R150, R153, R154) -/

namespace Sys2Proof.Machine

/-! ### The meaning of each command on its operands -/

section

variable (s : State)

theorem exec_run_of_setup (h : s.phase = .setup) :
    exec (.run (.ok ())) s = .next (((s.setLastt s.now).respond []).setPhase .top) :=
  if_neg (not_not.mpr h)

theorem exec_run_of_ne_setup (h : s.phase ≠ .setup) :
    exec (.run (.ok ())) s = .next (s.raiseFault .phase (Instr.run (.ok ())).header) :=
  if_pos h

theorem exec_endframe_of_callback (h : s.phase = .callback) :
    exec (.endframe (.ok ())) s = .next ((s.respond []).setPhase .present) :=
  if_neg (not_not.mpr h)

theorem exec_endframe_of_ne_callback (h : s.phase ≠ .callback) :
    exec (.endframe (.ok ())) s = .next (s.raiseFault .phase (Instr.endframe (.ok ())).header) :=
  if_pos h

theorem exec_quit : exec (.quit (.ok ())) s = .next ((s.setQuit true).respond []) := rfl

theorem exec_cbreg (en : Bool) : exec (.cbreg en (.ok ())) s = .next ((s.setCbEn en).respond []) := rfl

end

/-- Settles O46: the test of the phase decides between the start of the loop and the fault. -/
theorem runStartsTheLoop : Obligations.RunStartsTheLoop := by
  intro s
  refine ⟨rfl, fun h => ?_, fun h => exists_faultEntered (exec_run_of_ne_setup s h) rfl⟩
  exact ⟨_, exec_run_of_setup s h, rfl, rfl, rfl, fun _ => rfl, rfl⟩

/-- Settles O47: the test of the phase decides between the return to the loop and the fault. -/
theorem endframeReturnsTheCallback : Obligations.EndframeReturnsTheCallback := by
  intro s
  refine ⟨rfl, fun h => ?_, fun h => exists_faultEntered (exec_endframe_of_ne_callback s h) rfl⟩
  exact ⟨_, exec_endframe_of_callback s h, rfl, rfl, fun _ => rfl, rfl⟩

/-- A byte without the seven bits CBREG reserves is 0 or 1. -/
theorem toNat_le_one_of_and_eq_zero {c8 : Byte} (h : c8 &&& 0xFE = 0) : c8.toNat ≤ 1 := by
  have hbit : c8 = c8 &&& 1 := by
    calc c8 = c8 &&& (0xFE ||| 1) := (BitVec.and_allOnes (x := c8)).symm
      _ = 0 ||| c8 &&& 1 := by rw [BitVec.and_or_distrib_left, h]
      _ = c8 &&& 1 := BitVec.zero_or
  rw [hbit, BitVec.toNat_and]
  exact Nat.and_le_right

theorem eq_cbreg_of_code {o : Op} (h : (0x06 : Byte) = o.code) : o = .cbreg := by
  cases o with
  | cbreg => rfl
  | _ => cases h

/-- CBREG's opcode with a reserved bit set is no row of the map (R65, R154). -/
theorem selectRow_cbreg_of_gt {c8 : Byte} (nw : BitVec 16) (h : 1 < c8.toNat) :
    selectRow (mkHeader 0x06 c8 nw) = none := by
  rw [Option.eq_none_iff_forall_ne_some]
  intro o ho
  rw [selectRow_eq_some_iff, opField_mkHeader, c8Field_mkHeader] at ho
  obtain ⟨hop, hc8⟩ := ho
  obtain rfl := eq_cbreg_of_code hop
  exact h.not_ge (toNat_le_one_of_and_eq_zero hc8)

/-- Settles O48: each command sets its flag besides the response, and a reserved bit of `c8` selects no row. -/
theorem quitAndCbregSetTheirFlags : Obligations.QuitAndCbregSetTheirFlags := by
  intro s en
  refine ⟨rfl, rfl, fun c8 nw => selectRow_cbreg_of_gt nw, ?_, ?_⟩
  · exact ⟨_, exec_quit s, rfl, rfl, fun _ => rfl, rfl⟩
  · exact ⟨_, exec_cbreg s en, rfl, rfl, fun _ => rfl, rfl⟩

/-! ## The steps TOP, CLEARIN and TIME (R145, R146, R148) -/

section

variable {s u : State}

theorem topStep_of_quit (h : s.quit = true) : topStep s = s.setPhase .halted :=
  if_pos h

theorem topStep_of_not_quit (h : s.quit = false) : topStep s = s.setPhase .clearin :=
  if_neg (Bool.eq_false_iff.mp h)

theorem step_of_blockActs_top (hb : BlockActs s u) (hp : s.phase = .top) : step s = .next (topStep u) := by
  rw [step_eq_blockTurn hb, blockTurn, hb.phase_eq, hp]
  rfl

theorem step_of_blockActs_clearin (hb : BlockActs s u) (hp : s.phase = .clearin) :
    step s = .next (clearinStep u) := by
  rw [step_eq_blockTurn hb, blockTurn, hb.phase_eq, hp]
  rfl

theorem step_of_blockActs_time (hb : BlockActs s u) (hp : s.phase = .time) : step s = timeStep u := by
  rw [step_eq_blockTurn hb, blockTurn, hb.phase_eq, hp]
  rfl

theorem timeStep_of_callback (hn : s.lastt.toNat ≤ s.now.toNat) (hc : s.cbEn = true) :
    timeStep s = .next (((s.setLastt s.now).sendFrameStart (frameStart s.elapsed)).setPhase .callback) :=
  (if_neg hn.not_gt).trans (if_pos hc)

theorem timeStep_of_no_callback (hn : s.lastt.toNat ≤ s.now.toNat) (hc : s.cbEn = false) :
    timeStep s = .next ((s.setLastt s.now).setPhase .present) :=
  (if_neg hn.not_gt).trans (if_neg (Bool.eq_false_iff.mp hc))

theorem timeStep_of_clock_below (hn : s.now.toNat < s.lastt.toNat) : timeStep s = .refused .clockDecreased :=
  if_pos hn

end

/-- Settles O49: TOP is decided by the quit flag, and each step sets the fields its rule names. -/
theorem topAndClearinStep : Obligations.TopAndClearinStep := by
  intro s u hb
  obtain ⟨ts, rfl⟩ := hb.exists_eq_setTurns
  refine ⟨fun hp hq => ?_, fun hp hq => ?_, fun hp => step_of_blockActs_clearin hb hp⟩
  · rw [step_of_blockActs_top hb hp, topStep_of_quit (s := s.setTurns ts) hq]
    rfl
  · rw [step_of_blockActs_top hb hp, topStep_of_not_quit (s := s.setTurns ts) hq]
    rfl

/-- The two words of FRAME_START are the halves of `dt`, low word first (R70). -/
theorem frameStart_toNat (dt : BitVec 64) :
    (frameStart dt).hi.toNat * 2 ^ 32 + (frameStart dt).lo.toNat = dt.toNat := by
  have hdt := dt.isLt
  simp only [frameStart, BitVec.extractLsb'_toNat, Nat.shiftRight_eq_div_pow]
  omega

/-- Settles O50: the clock is compared with `LASTT` first and the callback flag chooses the phase, and the record's words
are the halves of the elapsed time. -/
theorem timeMeasuresAndChoosesThePhase : Obligations.TimeMeasuresAndChoosesThePhase := by
  intro s u hb hp
  have hstep := step_of_blockActs_time hb hp
  obtain ⟨ts, rfl⟩ := hb.exists_eq_setTurns
  refine ⟨fun hn hc => ⟨frameStart s.elapsed, ?_, frameStart_toNat _⟩, fun hn hc => ?_, fun hn => ?_⟩
  · exact hstep.trans (timeStep_of_callback (s := s.setTurns ts) hn hc)
  · exact hstep.trans (timeStep_of_no_callback (s := s.setTurns ts) hn hc)
  · exact hstep.trans (timeStep_of_clock_below (s := s.setTurns ts) hn)

end Sys2Proof.Machine
end

section
/-! ## The commands that cannot fault once decoded (R161) -/

namespace Sys2Proof.Machine

/-- The answer `r` is a next state with one more OK response than `s`, in the phase of `s` and with its fault record. -/
def AnswersOk (s : State) (r : Result) : Prop :=
  ∃ t vs, r = .next t ∧ Answered s t vs ∧ t.phase = s.phase ∧ t.err = s.err ∧ t.errcmd = s.errcmd

/-- The fields R161 speaks of, in one tuple: one equation of it says that an update touches none of them. -/
def State.statusFields (s : State) := (s.rspPort, s.phase, s.err, s.errcmd)

section AnswersOk

variable {s u : State}

theorem AnswersOk.respond (vs : List Word) (e : u.statusFields = s.statusFields) :
    AnswersOk s (.next (u.respond vs)) := by
  simp only [State.statusFields, Prod.mk.injEq] at e
  obtain ⟨hport, hphase, herr, herrcmd⟩ := e
  exact ⟨_, vs, rfl, congrArg (· ++ _) hport, hphase, herr, herrcmd⟩

/-- A well-formed command has its operands, so only its own rule is left to look at (R66). -/
theorem AnswersOk.withArgs {α : Type} {i : Instr} {a : Args α} {ok : α → Bool} {k : α → Result}
    (hwf : a.wf ok = true) (hk : ∀ v, ok v = true → AnswersOk s (k v)) : AnswersOk s (withArgs i a s k) := by
  cases a with
  | ok v => exact hk v hwf
  | wrongCount nw => cases hwf

/-- A test that is met leaves its first branch to look at. -/
theorem AnswersOk.ite_of {p : Prop} [Decidable p] {r r' : Result} (hp : p) (h : AnswersOk s r) :
    AnswersOk s (if p then r else r') := by
  rwa [if_pos hp]

end AnswersOk

/-- CIRC and CIRCF alone test an operand, the reserved half of the `RAD` word, which is 0 when well-formed; the others
answer at once, and no update they make touches the phase, the fault record or the response port. -/
theorem exec_answersOk {i : Instr} (hi : neverFaults i.op = true) (hwf : i.wf = true) (s : State) :
    AnswersOk s (exec i s) := by
  cases i
  case setres | setresa | run | endframe | glyphget | glyphset | sprite | colorget | colorset | randn | randr =>
    simp [neverFaults, Instr.op] at hi
  case circ | circf => exact .withArgs hwf fun _ hrad => .ite_of (eq_of_beq hrad) (.respond _ rfl)
  all_goals exact .withArgs hwf fun _ _ => .respond _ rfl

/-- Settles O58: each of these commands answers OK on well-formed operands. -/
theorem decodedDrawingNeverFaults : Obligations.DecodedDrawingNeverFaults :=
  fun _ s hi hwf => exec_answersOk hi hwf s

end Sys2Proof.Machine
end

section
/-! ## What touches the input state (R121, R146, R187) -/

namespace Sys2Proof.Machine

variable {s t : State}

/-- The input state only DRAIN changes (R121, R187): the held buttons, the mouse position and the open devices. -/
def State.drainedInput (s : State) := (s.down, s.mx, s.my, s.opened)

/-- The input state DRAIN gathers and CLEARIN empties (R146, R187; log 21): the latched buttons and the text. -/
def State.frameInput (s : State) := (s.pressed, s.text)

/-- The commands on the input state are queries (R110 to R113): no command writes it. -/
theorem CommandEffect.input_eq {i : Instr} (he : CommandEffect i s t) :
    t.drainedInput = s.drainedInput ∧ t.frameInput = s.frameInput := by
  cases he <;> exact ⟨rfl, rfl⟩

theorem BlockMove.drainedInput_eq (hm : BlockMove s t) (hdrain : s.phase ≠ .drain) :
    t.drainedInput = s.drainedInput := by
  cases hm with
  | ranCommand hp hd he => exact he.input_eq.1
  | drained hp => exact absurd hp hdrain
  | _ => rfl

theorem BlockMove.frameInput_eq (hm : BlockMove s t) (hdrain : s.phase ≠ .drain) (hclearin : s.phase ≠ .clearin) :
    t.frameInput = s.frameInput := by
  cases hm with
  | ranCommand hp hd he => exact he.input_eq.2
  | drained hp => exact absurd hp hdrain
  | clearedInput hp => exact absurd hp hclearin
  | _ => rfl

/-- Another agent's turn leaves the input state, reset's apart: PLATFORM's events wait in the queue (R156). -/
theorem TurnMove.drainedInput_eq {v : Turn} (hm : TurnMove s v t) (hr : v ≠ .reset) (hdrain : s.phase ≠ .drain) :
    t.drainedInput = s.drainedInput := by
  cases hm with
  | block hb => exact hb.drainedInput_eq hdrain
  | reset => exact absurd rfl hr
  | _ => rfl

theorem TurnMove.frameInput_eq {v : Turn} (hm : TurnMove s v t) (hr : v ≠ .reset) (hdrain : s.phase ≠ .drain)
    (hclearin : s.phase ≠ .clearin) : t.frameInput = s.frameInput := by
  cases hm with
  | block hb => exact hb.frameInput_eq hdrain hclearin
  | reset => exact absurd rfl hr
  | _ => rfl

/-- Settles O59: outside DRAIN, and for PRESSED and the text outside CLEARIN too, no move but reset's writes the input
state. -/
theorem inputChangesOnlyInItsSteps : Obligations.InputChangesOnlyInItsSteps := by
  intro s t hstep hreset
  obtain ⟨v, ts, hs, hm⟩ := step_move hstep
  have hr : v ≠ .reset := ne_of_head?_ne hs (by decide) hreset
  refine ⟨fun hdrain => ?_, fun hdrain hclearin => ?_⟩
  · simpa [State.drainedInput] using hm.drainedInput_eq hr hdrain
  · simpa [State.frameInput] using hm.frameInput_eq hr hdrain hclearin

end Sys2Proof.Machine
end

section
/-! ## Reset (R180, R181) -/

namespace Sys2Proof.Machine

/-- A reset turn is taken in every phase (R180). -/
theorem step_of_reset {s : State} {ts : List Turn} (h : s.turns = .reset :: ts) :
    step s = .next (s.setTurns ts).applyReset :=
  step_eq_takeTurn h

/-- Settles O55: whatever the phase, the step is `applyReset`, which takes each entry of the table from `resetWith`. -/
theorem resetRestoresTheTable : Obligations.ResetRestoresTheTable := by
  intro s ts h
  refine ⟨_, step_of_reset h, ?_⟩
  simp [State.applyReset, State.resetWith]

end Sys2Proof.Machine
end

section
/-! ## The packets the spec writes out (95_test_vectors.md, 2.1) -/

namespace Sys2Proof

/-- A packet the encoder writes for a well-formed command decodes to that command, with nothing left over. -/
theorem decode_of_encode_eq {i : Instr} {ws : List Word} (hwf : i.wf = true) (h : encode i = ws) :
    decode ws = .command i [] := by
  rw [← h, ← decodeEncodeRoundTrip i [] hwf, List.append_nil]

/-- Settles O3: each packet is the one the encoder writes for the command the spec names. -/
theorem specPacketsDecode : Obligations.SpecPacketsDecode := by
  refine ⟨?_, ?_, ?_, ?_, ?_, ?_, ?_, ?_⟩ <;> exact decode_of_encode_eq (by decide) (by decide)

end Sys2Proof
end
